-- ==== Sys2Proof/Word.lean ====
section
/-! DEFINITION. The word types of the block: register words and command words. -/

namespace Sys2Proof

/-- A TRNG register or data word: 32 bits (00_scope.md R10, 20_memory.md R70). -/
abbrev Word := BitVec 32

/-- The operand field of a command word, and every code that travels in it (30_encoding.md R87). -/
abbrev Byte := BitVec 8

/-- A command word: 48 bits (30_encoding.md R87). -/
abbrev Command := BitVec 48

end Sys2Proof
end

