-- ==== Sys2Proof/Syntax.lean ====
section
/-! DEFINITION. The operations of the block as syntax: the clock identities, the operand values and the 25 instructions of
spec/opcode_table.json, with the reasons for which a command word or an operation is refused. -/

namespace Sys2Proof

/-- The peripherals of AHB bus 1, in the order of 30_encoding.md R84. -/
inductive Ahb1 where
  | dma1 | dma2 | gpioa | gpiob | gpioc | gpiod | gpioe | gpiof | gpiog | gpioh
  deriving DecidableEq, Repr, Inhabited

/-- The peripherals of AHB bus 2 (30_encoding.md R84). -/
inductive Ahb2 where
  | rng | otgfs
  deriving DecidableEq, Repr, Inhabited

/-- The one peripheral of AHB bus 3; the registry calls it FSMC (30_encoding.md R84, 90_conflicts.md C2). -/
inductive Ahb3 where
  | fmc
  deriving DecidableEq, Repr, Inhabited

/-- The peripherals of APB bus 1 (30_encoding.md R84). `tim2` is the designated timer (R86). -/
inductive Apb1 where
  | tim2 | usart2 | usart3 | spi3 | i2c1 | can1 | dac
  deriving DecidableEq, Repr, Inhabited

/-- The peripherals of APB bus 2 (30_encoding.md R84). -/
inductive Apb2 where
  | usart1 | adc1 | syscfg
  deriving DecidableEq, Repr, Inhabited

/-- A clock identity: the tagged variant over bus families, each family but RTC and PowerControl with a nested
peripheral tag (30_encoding.md R84). The set is closed (90_conflicts.md C6). -/
inductive ClockId where
  | ahb1 (p : Ahb1)
  | ahb2 (p : Ahb2)
  | ahb3 (p : Ahb3)
  | apb1 (p : Apb1)
  | apb2 (p : Apb2)
  | rtc
  | pwr
  deriving DecidableEq, Repr, Inhabited

/-- A legal APB prescaler, PRESC_SET = 1, 2, 4, 8 or 16, held as the divisor (10_state.md R34, 92_eei_decisions.md D22). -/
inductive Prescaler where
  | by1 | by2 | by4 | by8 | by16
  deriving DecidableEq, Repr, Inhabited

/-- The client's completion signal, the operand of CLIENT_RETURN: 0 is Continue, 1 is Done (30_encoding.md R90). -/
inductive Answer where
  | more | done
  deriving DecidableEq, Repr

/-- The refusal reasons of 60_exceptions.md R255. The first five are the decoder's (30_encoding.md R92). -/
inductive Reason where
  /-- X_RESERVED_OPCODE: the opcode is not in the map. -/
  | reservedOpcode
  /-- X_NONZERO_FIELD: a field the format does not use is not zero. -/
  | nonzeroField
  /-- X_RESERVED_IDENTITY: a format-I operand is no ClockId code. -/
  | reservedIdentity
  /-- X_NO_HANDLE: the operand of a CLK_* operation has no handle. -/
  | noHandle
  /-- X_OPERAND_RANGE: an X, C, B or P operand is out of its range. -/
  | operandRange
  /-- X_INTERNAL_ONLY: CLK_CONFIGURE issued as a command. -/
  | internalOnly
  /-- X_REENTRY: IRQ_ENTER while an invocation is in progress. -/
  | reentry
  /-- X_PHASE: SEQ_NEXT or CLIENT_RETURN outside ClientActive. -/
  | wrongPhase
  deriving DecidableEq, Repr

/-- The instructions: one constructor per row of spec/opcode_table.json (30_encoding.md R89), its operands assembled as
R90 says. Operands are plain data; `Instr.wellFormed` gives their ranges. -/
inductive Instr where
  | clkIsEnabled (id : ClockId)
  | clkEnable (id : ClockId)
  | clkDisable (id : ClockId)
  | clkGetFrequency (id : ClockId)
  | clkConfigure (id : ClockId)
  | regGpioHandle (idx : Nat)
  | regPeriphHandle (idx : Nat)
  | trngGet
  | trngCancel
  | trngSetClient (c : Nat)
  | trngIsEnabledClock
  | trngEnableClock
  | trngDisableClock
  | irqEnter
  | seqNext
  | clientReturn (r : Answer)
  | hwDataReady (w : Word)
  | hwSeedError
  | hwClockError
  | hwSeedCurrent (b : Bool)
  | hwClockCurrent (b : Bool)
  | envSetSysfreq (f : Word)
  | envSetApb1Presc (p : Prescaler)
  | envSetApb2Presc (p : Prescaler)
  | envSetTimpre (b : Bool)
  deriving DecidableEq, Repr

end Sys2Proof
end

