-- ==== Sys2Proof/WellFormed.lean ====
section
/-! DEFINITION. Which instructions are well-formed: the operand checks of 30_encoding.md R88 and R92 that the operand's type
does not already carry (a prescaler, a selector and an identity are typed; a handle, an index and a client are checked). -/

namespace Sys2Proof

/-- The identities that have a handle: every code of 30_encoding.md R84 but `ahb2.otgfs` (42_registries.md R155). -/
def ClockId.hasHandle : ClockId → Bool
  | .ahb1 _ => true
  | .ahb2 .rng => true
  | .ahb2 .otgfs => false
  | .ahb3 _ => true
  | .apb1 _ => true
  | .apb2 _ => true
  | .rtc => true
  | .pwr => true

/-- A legal ClientId: 1..255 (30_encoding.md R88, 92_eei_decisions.md D36). -/
def clientInRange (c : Nat) : Bool := 1 ≤ c && c ≤ 255

/-- The operand ranges of 30_encoding.md R88 and the handle check of R92 item 4. -/
def Instr.wellFormed : Instr → Bool
  | .clkIsEnabled id => id.hasHandle
  | .clkEnable id => id.hasHandle
  | .clkDisable id => id.hasHandle
  | .clkGetFrequency id => id.hasHandle
  | .clkConfigure id => id.hasHandle
  | .regGpioHandle idx => idx ≤ 7
  | .regPeriphHandle idx => idx ≤ 15
  | .trngGet => true
  | .trngCancel => true
  | .trngSetClient c => clientInRange c
  | .trngIsEnabledClock => true
  | .trngEnableClock => true
  | .trngDisableClock => true
  | .irqEnter => true
  | .seqNext => true
  | .clientReturn _ => true
  | .hwDataReady _ => true
  | .hwSeedError => true
  | .hwClockError => true
  | .hwSeedCurrent _ => true
  | .hwClockCurrent _ => true
  | .envSetSysfreq _ => true
  | .envSetApb1Presc _ => true
  | .envSetApb2Presc _ => true
  | .envSetTimpre _ => true

end Sys2Proof
end

