-- ==== Sys2Proof/Decode.lean ====
section
/-! DEFINITION. The decoder, total on every 48-bit command word (30_encoding.md R92), and after it the encoder, written from
the same tables (R84, R87, R88, R89). -/

namespace Sys2Proof

/-- The `opcode` field, bits 47:40 (30_encoding.md R87). -/
def opcodeField (w : Command) : Byte := w.extractLsb' 40 8

/-- The `operand` field, bits 39:32 (30_encoding.md R87). -/
def operandField (w : Command) : Byte := w.extractLsb' 32 8

/-- The `payload` field, bits 31:0 (30_encoding.md R87). -/
def payloadField (w : Command) : Word := w.extractLsb' 0 32

/-- The 8-bit code of a clock identity: family in bits 7:5, position in bits 4:0 (30_encoding.md R84). -/
def ClockId.code : ClockId → Byte
  | .ahb1 .dma1 => 0x00
  | .ahb1 .dma2 => 0x01
  | .ahb1 .gpioa => 0x02
  | .ahb1 .gpiob => 0x03
  | .ahb1 .gpioc => 0x04
  | .ahb1 .gpiod => 0x05
  | .ahb1 .gpioe => 0x06
  | .ahb1 .gpiof => 0x07
  | .ahb1 .gpiog => 0x08
  | .ahb1 .gpioh => 0x09
  | .ahb2 .rng => 0x20
  | .ahb2 .otgfs => 0x21
  | .ahb3 .fmc => 0x40
  | .apb1 .tim2 => 0x60
  | .apb1 .usart2 => 0x61
  | .apb1 .usart3 => 0x62
  | .apb1 .spi3 => 0x63
  | .apb1 .i2c1 => 0x64
  | .apb1 .can1 => 0x65
  | .apb1 .dac => 0x66
  | .apb2 .usart1 => 0x80
  | .apb2 .adc1 => 0x81
  | .apb2 .syscfg => 0x82
  | .rtc => 0xA0
  | .pwr => 0xC0

/-- The identity a code stands for; every other code is reserved (30_encoding.md R84, R85). -/
def clockIdOfCode (code : Byte) : Option ClockId :=
  match code.toNat with
  | 0x00 => some (.ahb1 .dma1)
  | 0x01 => some (.ahb1 .dma2)
  | 0x02 => some (.ahb1 .gpioa)
  | 0x03 => some (.ahb1 .gpiob)
  | 0x04 => some (.ahb1 .gpioc)
  | 0x05 => some (.ahb1 .gpiod)
  | 0x06 => some (.ahb1 .gpioe)
  | 0x07 => some (.ahb1 .gpiof)
  | 0x08 => some (.ahb1 .gpiog)
  | 0x09 => some (.ahb1 .gpioh)
  | 0x20 => some (.ahb2 .rng)
  | 0x21 => some (.ahb2 .otgfs)
  | 0x40 => some (.ahb3 .fmc)
  | 0x60 => some (.apb1 .tim2)
  | 0x61 => some (.apb1 .usart2)
  | 0x62 => some (.apb1 .usart3)
  | 0x63 => some (.apb1 .spi3)
  | 0x64 => some (.apb1 .i2c1)
  | 0x65 => some (.apb1 .can1)
  | 0x66 => some (.apb1 .dac)
  | 0x80 => some (.apb2 .usart1)
  | 0x81 => some (.apb2 .adc1)
  | 0x82 => some (.apb2 .syscfg)
  | 0xA0 => some .rtc
  | 0xC0 => some .pwr
  | _ => none

/-- The bus family of an identity, bits 7:5 of its code (30_encoding.md R86). -/
def ClockId.family (id : ClockId) : BitVec 3 := id.code.extractLsb' 5 3

/-- The divisor a prescaler stands for, which is also its operand byte (30_encoding.md R88). -/
def Prescaler.divisor : Prescaler → Nat
  | .by1 => 1
  | .by2 => 2
  | .by4 => 4
  | .by8 => 8
  | .by16 => 16

/-- The prescaler with a given divisor: 1, 2, 4, 8 or 16 (30_encoding.md R88). -/
def prescalerOfDivisor (n : Nat) : Option Prescaler :=
  match n with
  | 1 => some .by1
  | 2 => some .by2
  | 4 => some .by4
  | 8 => some .by8
  | 16 => some .by16
  | _ => none

/-- The boolean selector of format B: 0 or 1 (30_encoding.md R88). -/
def boolOfSelector (n : Nat) : Option Bool :=
  match n with
  | 0 => some false
  | 1 => some true
  | _ => none

/-- The operand byte of a boolean selector (30_encoding.md R90). -/
def selectorOfBool (b : Bool) : Byte := if b then 1 else 0

/-- CLIENT_RETURN's answer from its selector: 0 = Continue, 1 = Done (30_encoding.md R90). -/
def answerOfBool (b : Bool) : Answer := if b then .done else .more

/-- CLIENT_RETURN's selector (30_encoding.md R90). -/
def boolOfAnswer : Answer → Bool
  | .more => false
  | .done => true

/-- One row of the opcode map: its format (30_encoding.md R88) and the instruction its operand builds. -/
inductive OpcodeRow where
  /-- Format N: no operand. -/
  | n (i : Instr)
  /-- Format I: a ClockId code. -/
  | i (build : ClockId → Instr)
  /-- Format X: an index up to `last`. -/
  | x (last : Nat) (build : Nat → Instr)
  /-- Format C: a ClientId. -/
  | c (build : Nat → Instr)
  /-- Format B: a boolean selector. -/
  | b (build : Bool → Instr)
  /-- Format P: a prescaler value. -/
  | p (build : Prescaler → Instr)
  /-- Format W: a 32-bit payload. -/
  | w (build : Word → Instr)

/-- The opcode map of 30_encoding.md R89; every other opcode is reserved (R91). -/
def opcodeMap (opcode : Nat) : Option OpcodeRow :=
  match opcode with
  | 0x01 => some (.i .clkIsEnabled)
  | 0x02 => some (.i .clkEnable)
  | 0x03 => some (.i .clkDisable)
  | 0x04 => some (.i .clkGetFrequency)
  | 0x05 => some (.i .clkConfigure)
  | 0x10 => some (.x 7 .regGpioHandle)
  | 0x11 => some (.x 15 .regPeriphHandle)
  | 0x20 => some (.n .trngGet)
  | 0x21 => some (.n .trngCancel)
  | 0x22 => some (.c .trngSetClient)
  | 0x23 => some (.n .trngIsEnabledClock)
  | 0x24 => some (.n .trngEnableClock)
  | 0x25 => some (.n .trngDisableClock)
  | 0x40 => some (.n .irqEnter)
  | 0x41 => some (.n .seqNext)
  | 0x42 => some (.b fun sel => .clientReturn (answerOfBool sel))
  | 0x80 => some (.w .hwDataReady)
  | 0x81 => some (.n .hwSeedError)
  | 0x82 => some (.n .hwClockError)
  | 0x83 => some (.b .hwSeedCurrent)
  | 0x84 => some (.b .hwClockCurrent)
  | 0x90 => some (.w .envSetSysfreq)
  | 0x91 => some (.p .envSetApb1Presc)
  | 0x92 => some (.p .envSetApb2Presc)
  | 0x93 => some (.b .envSetTimpre)
  | _ => none

/-- Are the fields the format does not use zero? (30_encoding.md R88, R92 item 2) -/
def unusedFieldsZero (row : OpcodeRow) (operand : Byte) (payload : Word) : Bool :=
  match row with
  | .n _ => operand == 0 && payload == 0
  | .i _ => payload == 0
  | .x _ _ => payload == 0
  | .c _ => payload == 0
  | .b _ => payload == 0
  | .p _ => payload == 0
  | .w _ => operand == 0

/-- A format-I operand: a code of R84 (item 3), with a handle (item 4). All five format-I opcodes are CLK_* operations
(30_encoding.md R89, R92). -/
def identityOperand (operand : Byte) (build : ClockId → Instr) : Except Reason Instr :=
  match clockIdOfCode operand with
  | none => .error .reservedIdentity
  | some id => if id.hasHandle then .ok (build id) else .error .noHandle

/-- An operand with a range check (30_encoding.md R92 item 5): `none` is out of range. -/
def rangedOperand (i : Option Instr) : Except Reason Instr :=
  match i with
  | none => .error .operandRange
  | some i => .ok i

/-- The operand checks of 30_encoding.md R92 items 3 to 5, and the operand's assembly (R90). -/
def decodeOperand (row : OpcodeRow) (operand : Byte) (payload : Word) : Except Reason Instr :=
  match row with
  | .n i => .ok i
  | .i build => identityOperand operand build
  | .x last build => rangedOperand (if operand.toNat ≤ last then some (build operand.toNat) else none)
  | .c build => rangedOperand (if clientInRange operand.toNat then some (build operand.toNat) else none)
  | .b build => rangedOperand ((boolOfSelector operand.toNat).map build)
  | .p build => rangedOperand ((prescalerOfDivisor operand.toNat).map build)
  | .w build => .ok (build payload)

/-- Decoding, in the order of 30_encoding.md R92: the first check that fails gives the refusal reason. -/
def decode (w : Command) : Except Reason Instr :=
  match opcodeMap (opcodeField w).toNat with
  | none => .error .reservedOpcode
  | some row =>
    if unusedFieldsZero row (operandField w) (payloadField w) then
      decodeOperand row (operandField w) (payloadField w)
    else .error .nonzeroField

/-- A command word from its three fields (30_encoding.md R87). -/
def packCommand (opcode operand : Byte) (payload : Word) : Command := opcode ++ operand ++ payload

/-- The command word of a well-formed instruction (30_encoding.md R87 to R90); unused fields are 0. -/
def encode : Instr → Command
  | .clkIsEnabled id => packCommand 0x01 id.code 0
  | .clkEnable id => packCommand 0x02 id.code 0
  | .clkDisable id => packCommand 0x03 id.code 0
  | .clkGetFrequency id => packCommand 0x04 id.code 0
  | .clkConfigure id => packCommand 0x05 id.code 0
  | .regGpioHandle idx => packCommand 0x10 (BitVec.ofNat 8 idx) 0
  | .regPeriphHandle idx => packCommand 0x11 (BitVec.ofNat 8 idx) 0
  | .trngGet => packCommand 0x20 0 0
  | .trngCancel => packCommand 0x21 0 0
  | .trngSetClient c => packCommand 0x22 (BitVec.ofNat 8 c) 0
  | .trngIsEnabledClock => packCommand 0x23 0 0
  | .trngEnableClock => packCommand 0x24 0 0
  | .trngDisableClock => packCommand 0x25 0 0
  | .irqEnter => packCommand 0x40 0 0
  | .seqNext => packCommand 0x41 0 0
  | .clientReturn r => packCommand 0x42 (selectorOfBool (boolOfAnswer r)) 0
  | .hwDataReady w => packCommand 0x80 0 w
  | .hwSeedError => packCommand 0x81 0 0
  | .hwClockError => packCommand 0x82 0 0
  | .hwSeedCurrent b => packCommand 0x83 (selectorOfBool b) 0
  | .hwClockCurrent b => packCommand 0x84 (selectorOfBool b) 0
  | .envSetSysfreq f => packCommand 0x90 0 f
  | .envSetApb1Presc p => packCommand 0x91 (BitVec.ofNat 8 p.divisor) 0
  | .envSetApb2Presc p => packCommand 0x92 (BitVec.ofNat 8 p.divisor) 0
  | .envSetTimpre b => packCommand 0x93 (selectorOfBool b) 0

/-- The command word that spec/opcode_table.json writes as the number `w` of `nbits` bits; the bits above are 0. -/
def tableCommand (nbits w : Nat) : Command := BitVec.ofNat 48 (w % 2 ^ nbits)

/-- What the decoder reads from a word numbered as spec/opcode_table.json numbers it; `none` where it refuses. -/
def decodeTableWord (nbits w : Nat) : Option Instr :=
  match decode (tableCommand nbits w) with
  | .ok i => some i
  | .error _ => none

end Sys2Proof
end

