-- ==== Sys2Proof/Config.lean ====
section
/-! DEFINITION. The implementation parameters of 00_scope.md R9 and the free values. A parameter the spec decides has its
value; a parameter the spec leaves OPEN, and every free value, is an opaque constant with no body. -/

namespace Sys2Proof

/-- The RTC clock-source selection; OTHER stands for any selection that is not LSI (10_state.md R33). -/
inductive RtcSrc where
  | lsi | other
  deriving DecidableEq, Repr, Inhabited

/-- FREQ_WIDTH, decided (R9, 92_eei_decisions.md D20). -/
def Config.freqWidth : Nat := 32

/-- HW_GEN_REQUIRES_RNGEN, decided: false (R9, 92_eei_decisions.md D17). -/
def Config.hwGenRequiresRngen : Bool := false

/-- The identity of the driver's own clock handle, immutable (10_state.md R37). -/
def Config.drvClock : ClockId := .ahb2 .rng

/-- RNG_BASE divided by 4, OPEN (R9, D4); every register address is a multiple of 4 (20_memory.md R70).
Assumption log 14. -/
opaque Config.rngBaseWord : BitVec 30

/-- RNG_BASE, the byte address of the TRNG register block. -/
def Config.rngBase : BitVec 32 := Config.rngBaseWord ++ 0#2

/-- RESET_CLK_ENABLED, OPEN (R9, D28): the enable bit of each clock line at reset. Assumption log 1. -/
opaque Config.resetClkEnabled : ClockId → Bool

/-- RESET_RTC_SRC, OPEN (R9, D28). Assumption log 1. -/
opaque Config.resetRtcSrc : RtcSrc

/-- INIT_SYS_FREQ in Hz, below 2 ^ FREQ_WIDTH, OPEN (R9, D28). Assumption log 1. -/
opaque Config.initSysFreq : Word

/-- INIT_APB1_PRESC, OPEN (R9, D28). Assumption log 1. -/
opaque Config.initApb1Presc : Prescaler

/-- INIT_APB2_PRESC, OPEN (R9, D28). Assumption log 1. -/
opaque Config.initApb2Presc : Prescaler

/-- INIT_TIMPRE, OPEN (R9, D28). Assumption log 1. -/
opaque Config.initTimpre : Bool

/-- The answers of `draw()`: free 32-bit values under no law, one for each use (60_exceptions.md R258). Assumption log 2. -/
opaque Config.draw : Nat → Word

end Sys2Proof
end

