-- ==== Sys2Proof/Machine/State.lean ====
section
/-! DEFINITION. The state of the block (10_state.md), with what the outside supplies to a run, and the state at reset. -/

namespace Sys2Proof.Machine

/-- The three TRNG registers (20_memory.md R60). -/
inductive Reg where
  | cr | sr | dr
  deriving DecidableEq, Repr

/-- The faults of 60_exceptions.md R250, each with the value it records. `raiseFault` puts one into `State.faults`, which is
the whole effect of the operation that raises it (R252); `step` answers it as the machine's stop on the step after, since
no step is defined after a fault. Both stops are safe: they are the spec's own. -/
inductive Fault where
  /-- F_NOT_IMPLEMENTED: raised by CLK_GET_FREQUENCY on rtc and pwr (R251); records the identity. Safe. -/
  | notImplemented (id : ClockId)
  /-- F_RNG_CLOCK_GATED: raised by a TRNG register access with the RNG clock gated (R253); records the register. Safe. -/
  | rngClockGated (reg : Reg)
  deriving DecidableEq, Repr

/-- Why a step has no meaning. No arm of `exec` and no step raises one: what the spec refuses is recorded in
`State.refused` (60_exceptions.md R256). -/
inductive Refusal where
  /-- An instruction with no meaning yet, by its mnemonic; only an arm of `exec` may raise it. Safe. -/
  | notModelled (mnemonic : String)
  deriving DecidableEq, Repr

/-- The labels of the handler's micro-steps (44_trng_interrupt.md R191). -/
inductive HandlerStep where
  | h1 | h2 | h3 | h4 | h5 | h6 | h7 | h8 | h9 | h10 | h11
  deriving DecidableEq, Repr

/-- The handler's activation state (10_state.md R38). -/
inductive Phase where
  | idle
  | running (hpc : HandlerStep)
  | clientActive
  deriving DecidableEq, Repr

/-- The state of the word sequence (10_state.md R39). -/
inductive SeqState where
  | fresh | exhausted
  deriving DecidableEq, Repr

/-- The operations that emit a result, by the mnemonic their `out` entry carries (10_state.md R41). -/
inductive Emitter where
  | clkIsEnabled | clkGetFrequency | regGpioHandle | regPeriphHandle
  | trngGet | trngCancel | trngIsEnabledClock | seqNext
  deriving DecidableEq, Repr

/-- The results of 10_state.md R41. -/
inductive Result where
  | bool (b : Bool)
  | frequency (hz : Nat)
  | identity (code : Byte)
  | ok
  /-- SEQ_NEXT's `Some w` or `None`. -/
  | word (w : Option Word)
  deriving DecidableEq, Repr

/-- One entry of the output trace (10_state.md R41). -/
structure Output where
  mnemonic : Emitter
  result : Result
  deriving DecidableEq, Repr

/-- The events of 10_state.md R42. -/
inductive Event where
  | rngReconfigure
  | clientInvoked (c : Nat)
  | clientReturned (r : Answer)
  deriving DecidableEq, Repr

/-- The clock-control backend's state (10_state.md R32 to R34). `clkEn` holds one bit for each of the 24 identities with a
handle, in the order of their codes (42_registries.md R155; `lineIndex` numbers them). -/
structure Backend where
  clkEn : Vector Bool 24
  rtcSrc : RtcSrc
  sysFreq : Word
  apb1Presc : Prescaler
  apb2Presc : Prescaler
  timpre : Bool
  deriving DecidableEq, Repr

/-- One entry of the schedule: which agent moves next, in the interleaving of 20_memory.md R71. Assumption log 6. -/
inductive Slot where
  /-- A command word issued in program order: it waits until the thread has no step of its own outstanding. -/
  | inOrder (w : Command)
  /-- A command word issued at this very step boundary, if R71 admits it here. -/
  | atOnce (w : Command)
  /-- The software thread takes its next own step (a handler micro-step or TRNG_CANCEL's second write). -/
  | thread
  deriving DecidableEq, Repr

/-- The state of the block. The first group is the spec's (10_state.md R48); the last four fields are the model's own
(INVENTORY.md, State). -/
structure State where
  /-- CR (R22). -/
  cr : Word
  /-- SR (R26). -/
  sr : Word
  /-- DR (R31). -/
  dr : Word
  /-- Has a HW_DATA_READY loaded DR since reset (R31)? -/
  drLoaded : Bool
  /-- The clock-control backend (R32 to R34). -/
  backend : Backend
  /-- The registered client (R36). -/
  client : Option Nat
  /-- The handler's activation state (R38). -/
  phase : Phase
  /-- The word sequence (R39). -/
  seq : SeqState
  /-- The handler's SR latch (R40). -/
  hsr : Word
  /-- The output trace, oldest first (R41). -/
  out : List Output
  /-- The event log, oldest first (R42). -/
  ev : List Event
  /-- The set of faults, no repeats (R43). -/
  faults : List Fault
  /-- The refusal mark (R43). -/
  refused : Option Reason
  /-- Is TRNG_CANCEL's second write outstanding (43_trng_driver.md R173)? Assumption log 9. -/
  cancelStep2 : Bool
  /-- The schedule, next entry first. Assumption log 6. -/
  queue : List Slot
  /-- How many answers of `draw()` have been used. Assumption log 2. -/
  draws : Nat
  /-- What RNG_RECONFIG_EFFECT leaves of the backend at the next invocations of the hook; with none listed the hook
  changes nothing, the spec's default (41_clock_handle.md R124). Assumption log 12. -/
  reconfigEffects : List Backend
  deriving DecidableEq, Repr

/-- The identities with a handle in the order of their codes (42_registries.md R155, 30_encoding.md R84). -/
def handledIds : List ClockId :=
  [.ahb1 .dma1, .ahb1 .dma2, .ahb1 .gpioa, .ahb1 .gpiob, .ahb1 .gpioc, .ahb1 .gpiod, .ahb1 .gpioe, .ahb1 .gpiof,
    .ahb1 .gpiog, .ahb1 .gpioh, .ahb2 .rng, .ahb3 .fmc, .apb1 .tim2, .apb1 .usart2, .apb1 .usart3, .apb1 .spi3,
    .apb1 .i2c1, .apb1 .can1, .apb1 .dac, .apb2 .usart1, .apb2 .adc1, .apb2 .syscfg, .rtc, .pwr]

/-- The backend at launch: the OPEN parameters (10_state.md R48, 92_eei_decisions.md D28). Assumption log 1. -/
def Backend.launch : Backend where
  clkEn := ⟨(handledIds.map Config.resetClkEnabled).toArray, rfl⟩
  rtcSrc := Config.resetRtcSrc
  sysFreq := Config.initSysFreq
  apb1Presc := Config.initApb1Presc
  apb2Presc := Config.initApb2Presc
  timpre := Config.initTimpre

/-- The machine right after reset (70_reset_and_hazards.md R280, 10_state.md R48). The spec gives no value for `dr`, `seq`
and `hsr` (assumption log 3, 4, 5); the last four fields are the model's own (assumption log 23). -/
def State.reset : State where
  cr := 0
  sr := 0
  dr := 0
  drLoaded := false
  backend := Backend.launch
  client := none
  phase := .idle
  seq := .fresh
  hsr := 0
  out := []
  ev := []
  faults := []
  refused := none
  cancelStep2 := false
  queue := []
  draws := 0
  reconfigEffects := []

end Sys2Proof.Machine
end

