-- ==== Sys2Proof/Machine/Operands.lean ====
section
/-! DEFINITION. Operand forms: single bits of a register word, the clock lines of the backend, the two handle registries, and
the agent that issues an instruction. -/

namespace Sys2Proof.Machine

/-- The mask of bit `i` of a register word. -/
def bitMask (i : Nat) : Word := 1#32 <<< i

/-- `v` with bit `i` replaced by `b` (the field writes of 20_memory.md R65 and R66). -/
def putBit (v : Word) (i : Nat) (b : Bool) : Word := if b then v ||| bitMask i else v &&& ~~~(bitMask i)

/-- The place of an identity's enable bit in `Backend.clkEn`; `ahb2.otgfs` has no handle and no bit (42_registries.md R155,
R156). -/
def lineIndex : ClockId → Option (Fin 24)
  | .ahb1 .dma1 => some 0
  | .ahb1 .dma2 => some 1
  | .ahb1 .gpioa => some 2
  | .ahb1 .gpiob => some 3
  | .ahb1 .gpioc => some 4
  | .ahb1 .gpiod => some 5
  | .ahb1 .gpioe => some 6
  | .ahb1 .gpiof => some 7
  | .ahb1 .gpiog => some 8
  | .ahb1 .gpioh => some 9
  | .ahb2 .rng => some 10
  | .ahb2 .otgfs => none
  | .ahb3 .fmc => some 11
  | .apb1 .tim2 => some 12
  | .apb1 .usart2 => some 13
  | .apb1 .usart3 => some 14
  | .apb1 .spi3 => some 15
  | .apb1 .i2c1 => some 16
  | .apb1 .can1 => some 17
  | .apb1 .dac => some 18
  | .apb2 .usart1 => some 19
  | .apb2 .adc1 => some 20
  | .apb2 .syscfg => some 21
  | .rtc => some 22
  | .pwr => some 23

/-- `clk_en[id]` (10_state.md R32). -/
def lineOn (b : Backend) (id : ClockId) : Bool :=
  match lineIndex id with
  | some k => b.clkEn[k]
  | none => false

/-- `clk_en[id] <- v` (10_state.md R32). -/
def setLine (b : Backend) (id : ClockId) (v : Bool) : Backend :=
  match lineIndex id with
  | some k => { b with clkEn := b.clkEn.set k v }
  | none => b

/-- The GPIO clock registry: ports A to H in that order; `none` past the last port (42_registries.md R150). -/
def gpioReg (idx : Nat) : Option ClockId :=
  match idx with
  | 0 => some (.ahb1 .gpioa)
  | 1 => some (.ahb1 .gpiob)
  | 2 => some (.ahb1 .gpioc)
  | 3 => some (.ahb1 .gpiod)
  | 4 => some (.ahb1 .gpioe)
  | 5 => some (.ahb1 .gpiof)
  | 6 => some (.ahb1 .gpiog)
  | 7 => some (.ahb1 .gpioh)
  | _ => none

/-- The peripheral clock registry, in the source's order; `none` past the last handle (42_registries.md R151). -/
def periphReg (idx : Nat) : Option ClockId :=
  match idx with
  | 0 => some (.apb2 .adc1)
  | 1 => some (.apb1 .can1)
  | 2 => some (.apb1 .dac)
  | 3 => some (.ahb1 .dma1)
  | 4 => some (.ahb1 .dma2)
  | 5 => some (.ahb3 .fmc)
  | 6 => some (.apb1 .i2c1)
  | 7 => some .pwr
  | 8 => some .rtc
  | 9 => some (.apb2 .syscfg)
  | 10 => some (.apb1 .spi3)
  | 11 => some (.apb1 .tim2)
  | 12 => some (.ahb2 .rng)
  | 13 => some (.apb2 .usart1)
  | 14 => some (.apb1 .usart2)
  | 15 => some (.apb1 .usart3)
  | _ => none

/-- The agent that issues an operation (00_scope.md R8, 30_encoding.md R89). -/
inductive Agent where
  | software | kernel | client | hardware | environment
  deriving DecidableEq, Repr

/-- The issuing agent of each opcode (30_encoding.md R89). -/
def agentOf : Instr → Agent
  | .clkIsEnabled _ => .software
  | .clkEnable _ => .software
  | .clkDisable _ => .software
  | .clkGetFrequency _ => .software
  | .clkConfigure _ => .software
  | .regGpioHandle _ => .software
  | .regPeriphHandle _ => .software
  | .trngGet => .software
  | .trngCancel => .software
  | .trngSetClient _ => .software
  | .trngIsEnabledClock => .software
  | .trngEnableClock => .software
  | .trngDisableClock => .software
  | .irqEnter => .kernel
  | .seqNext => .client
  | .clientReturn _ => .client
  | .hwDataReady _ => .hardware
  | .hwSeedError => .hardware
  | .hwClockError => .hardware
  | .hwSeedCurrent _ => .hardware
  | .hwClockCurrent _ => .hardware
  | .envSetSysfreq _ => .environment
  | .envSetApb1Presc _ => .environment
  | .envSetApb2Presc _ => .environment
  | .envSetTimpre _ => .environment

end Sys2Proof.Machine
end

