-- ==== Sys2Proof/Machine/Flags.lean ====
section
/-! DEFINITION. The fields of CR and SR (30_encoding.md R80, R81), the interrupt line and the driver's state name. No
arithmetic operation of the block writes a flag (10_state.md R44). -/

namespace Sys2Proof.Machine

/-- The position of CR.CED (30_encoding.md R80). -/
def cedBit : Nat := 5

/-- The position of CR.IE (30_encoding.md R80). -/
def ieBit : Nat := 3

/-- The position of CR.RNGEN (30_encoding.md R80). -/
def rngenBit : Nat := 2

/-- The position of SR.SEIS (30_encoding.md R81). -/
def seisBit : Nat := 6

/-- The position of SR.CEIS (30_encoding.md R81). -/
def ceisBit : Nat := 5

/-- The position of SR.SECS (30_encoding.md R81). -/
def secsBit : Nat := 2

/-- The position of SR.CECS (30_encoding.md R81). -/
def cecsBit : Nat := 1

/-- The position of SR.DRDY (30_encoding.md R81). -/
def drdyBit : Nat := 0

/-- The defined bits of CR: CED, IE, RNGEN (30_encoding.md R80). -/
def crMask : Word := 0x0000002C

/-- The defined bits of SR: SEIS, CEIS, SECS, CECS, DRDY (30_encoding.md R81, R83). -/
def srMask : Word := 0x00000067

/-- CR.IE. -/
def ieSet (s : State) : Bool := s.cr.getLsbD ieBit

/-- CR.RNGEN. -/
def rngenSet (s : State) : Bool := s.cr.getLsbD rngenBit

/-- CR.CED. -/
def cedSet (s : State) : Bool := s.cr.getLsbD cedBit

/-- SR.SEIS. -/
def seisSet (s : State) : Bool := s.sr.getLsbD seisBit

/-- SR.CEIS. -/
def ceisSet (s : State) : Bool := s.sr.getLsbD ceisBit

/-- SR.DRDY. -/
def drdySet (s : State) : Bool := s.sr.getLsbD drdyBit

/-- Bit `i` of SR replaced by `b`, as a hardware event writes it (20_memory.md R64, 45_hw_and_env_events.md). -/
def setSrBit (i : Nat) (b : Bool) (s : State) : State := { s with sr := putBit s.sr i b }

/-- What a CR write of `v` leaves in CR: the three fields of `v`, reserved bits 0 (20_memory.md R63). -/
def crAfterWrite (v : Word) : Word := v &&& crMask

/-- What an SR write of `v` leaves in SR: SEIS and CEIS are cleared where `v` carries 0, all else is unchanged
(20_memory.md R63). -/
def srAfterWrite (sr v : Word) : Word :=
  let seisDone := if v.getLsbD seisBit then sr else putBit sr seisBit false
  if v.getLsbD ceisBit then seisDone else putBit seisDone ceisBit false

/-- The interrupt line, derived and never stored; no step tests it (60_exceptions.md R260, R262). -/
def irqLine (s : State) : Bool := ieSet s && (drdySet s || seisSet s || ceisSet s)

/-- The driver states named by 10_state.md R35. -/
inductive DriverState where
  | disabled | armed | genOnly | irqOnly
  deriving DecidableEq, Repr

/-- The driver state is the pair (CR.IE, CR.RNGEN); it is not stored apart from CR (10_state.md R35). -/
def driverState (s : State) : DriverState :=
  match ieSet s, rngenSet s with
  | false, false => .disabled
  | true, true => .armed
  | false, true => .genOnly
  | true, false => .irqOnly

end Sys2Proof.Machine
end

