-- ==== Sys2Proof/Machine/Ops.lean ====
section
/-! DEFINITION. The shared operations: results and events, faults and refusals, TRNG register access, the backend's hook, and
the handler's entry and return. -/

namespace Sys2Proof.Machine

/-- `emit(v)`: appends the operation's result to `out` (10_state.md R41). -/
def emit (m : Emitter) (r : Result) (s : State) : State := { s with out := s.out ++ [{ mnemonic := m, result := r }] }

/-- `log(e)`: appends an event to `ev` (10_state.md R42). -/
def logEvent (e : Event) (s : State) : State := { s with ev := s.ev ++ [e] }

/-- `raise Fault(code)`: adds the fault, with its recorded value, to the set `faults`; the operation ends with no further
effect (60_exceptions.md R252). -/
def raiseFault (f : Fault) (s : State) : State := { s with faults := if f ∈ s.faults then s.faults else s.faults ++ [f] }

/-- `refuse(reason)`: sets the mark if there is none yet; the operation ends with no other effect (60_exceptions.md R256). -/
def refuse (r : Reason) (s : State) : State := { s with refused := some (s.refused.getD r) }

/-- The fault codes (60_exceptions.md R250). -/
def faultCode : Fault → Byte
  | .notImplemented _ => 0x01
  | .rngClockGated _ => 0x02

/-- A register's offset from RNG_BASE (20_memory.md R60). -/
def regOffset : Reg → Word
  | .cr => 0x0
  | .sr => 0x4
  | .dr => 0x8

/-- The value a fault records: the identity code, or the register offset (60_exceptions.md R250). -/
def faultValue : Fault → Word
  | .notImplemented id => id.code.setWidth 32
  | .rngClockGated reg => regOffset reg

/-- The outcome of a register access: a value and the state after it, or the state in which the fault is recorded. -/
inductive Access (α : Type) where
  | done (v : α) (s : State)
  | faulted (s : State)

/-- What follows an access that does not fault; an access that faults ends the operation (60_exceptions.md R252, R259). -/
def andThen {α : Type} (a : Access α) (next : α → State → State) : State :=
  match a with
  | .done v s => next v s
  | .faulted s => s

/-- Is the RNG clock line enabled (20_memory.md R77)? -/
def rngClockOn (s : State) : Bool := lineOn s.backend (.ahb2 .rng)

/-- The word a DR read returns: DR if a HW_DATA_READY has loaded it since reset, else `draw()` (20_memory.md R62,
60_exceptions.md R258). -/
def drWord (s : State) : Word := if s.drLoaded then s.dr else Config.draw s.draws

/-- What a DR read leaves: SR.DRDY is 0, and a `draw()` answer is used up if the word came from one (20_memory.md R62). -/
def afterDrRead (s : State) : State :=
  { s with sr := putBit s.sr drdyBit false, draws := if s.drLoaded then s.draws else s.draws + 1 }

/-- `RegRead(R)`: a 32-bit read of a TRNG register (20_memory.md R62; 00_scope.md R12). Reserved bits read 0
(30_encoding.md R80, R81). -/
def regRead (r : Reg) (s : State) : Access Word :=
  if rngClockOn s then
    match r with
    | .cr => .done (s.cr &&& crMask) s
    | .sr => .done (s.sr &&& srMask) s
    | .dr => .done (drWord s) (afterDrRead s)
  else .faulted (raiseFault (.rngClockGated r) s)

/-- `RegWrite(R, v)`: a 32-bit write of a TRNG register (20_memory.md R63; 00_scope.md R12). -/
def regWrite (r : Reg) (v : Word) (s : State) : Access Unit :=
  if rngClockOn s then
    match r with
    | .cr => .done () { s with cr := crAfterWrite v }
    | .sr => .done () { s with sr := srAfterWrite s.sr v }
    | .dr => .done () s
  else .faulted (raiseFault (.rngClockGated r) s)

/-- The byte address of a register (20_memory.md R60). The sum wraps at 32 bits: assumption log 14. -/
def regAddress (r : Reg) : Word := Config.rngBase + regOffset r

/-- The register at an address; the address space holds no other (20_memory.md R60). -/
def regAt (addr : Word) : Option Reg :=
  if addr = regAddress .cr then some .cr
  else if addr = regAddress .sr then some .sr
  else if addr = regAddress .dr then some .dr
  else none

/-- `MemRead(addr, 4)`; `none` at an address for which the spec defines no access (20_memory.md R62). -/
def memRead (addr : Word) (s : State) : Option (Access Word) := (regAt addr).map fun r => regRead r s

/-- `MemWrite(addr, 4, v)`; `none` at an address for which the spec defines no access (20_memory.md R63). -/
def memWrite (addr : Word) (v : Word) (s : State) : Option (Access Unit) := (regAt addr).map fun r => regWrite r v s

/-- `ModifyCR`: one read-modify-write of CR in one atomic step; `f` replaces the named fields (20_memory.md R65). -/
def modifyCR (f : Word → Word) (s : State) : Access Unit :=
  match regRead .cr s with
  | .done v t => regWrite .cr (f v) t
  | .faulted t => .faulted t

/-- `RngReconfigure()`: logs the event and applies RNG_RECONFIG_EFFECT, the next listed effect or the default, no change
(41_clock_handle.md R124). Assumption log 12. -/
def rngReconfigure (s : State) : State :=
  match s.reconfigEffects with
  | [] => logEvent .rngReconfigure s
  | b :: rest => { logEvent .rngReconfigure s with backend := b, reconfigEffects := rest }

/-- Entry to the interrupt handler: `phase <- Running(H1)`, and nothing is saved (60_exceptions.md R268). -/
def enterHandler (s : State) : State := { s with phase := .running .h1 }

/-- `return`: the handler's return, `phase <- Idle`; nothing is restored (60_exceptions.md R269). -/
def returnHandler (s : State) : State := { s with phase := .idle }

/-- The operand of a CLK_* operation must have a handle (30_encoding.md R92 item 4); the decoder has refused any other,
and a meaning asked for one refuses it likewise. Assumption log 16. -/
def withHandle (id : ClockId) (next : State → State) (s : State) : State :=
  if id.hasHandle then next s else refuse .noHandle s

end Sys2Proof.Machine
end

