-- ==== Sys2Proof/Machine/Events.lean ====
section
/-! DEFINITION. The hardware and environment events (45_hw_and_env_events.md). They write state directly and never fault. -/

namespace Sys2Proof.Machine

/-- A word arrives: DR is loaded and DRDY set (45_hw_and_env_events.md R230). -/
def loadWord (w : Word) (s : State) : State := setSrBit drdyBit true { s with dr := w, drLoaded := true }

/-- HW_DATA_READY. Where HW_GEN_REQUIRES_RNGEN holds and RNGEN is 0 the event is not admitted: no step
(45_hw_and_env_events.md R230). -/
def execHwDataReady (w : Word) (s : State) : Host.Outcome State Fault Refusal :=
  .next (if Config.hwGenRequiresRngen && !rngenSet s then s else loadWord w s)

/-- HW_SEED_ERROR (45_hw_and_env_events.md R231). -/
def execHwSeedError (s : State) : Host.Outcome State Fault Refusal := .next (setSrBit seisBit true s)

/-- HW_CLOCK_ERROR, whatever CED holds (45_hw_and_env_events.md R232). -/
def execHwClockError (s : State) : Host.Outcome State Fault Refusal := .next (setSrBit ceisBit true s)

/-- HW_SEED_CURRENT (45_hw_and_env_events.md R233). -/
def execHwSeedCurrent (b : Bool) (s : State) : Host.Outcome State Fault Refusal := .next (setSrBit secsBit b s)

/-- HW_CLOCK_CURRENT (45_hw_and_env_events.md R234). -/
def execHwClockCurrent (b : Bool) (s : State) : Host.Outcome State Fault Refusal := .next (setSrBit cecsBit b s)

/-- ENV_SET_SYSFREQ (45_hw_and_env_events.md R236). -/
def execEnvSetSysfreq (f : Word) (s : State) : Host.Outcome State Fault Refusal :=
  .next { s with backend := { s.backend with sysFreq := f } }

/-- ENV_SET_APB1_PRESC (45_hw_and_env_events.md R237). -/
def execEnvSetApb1Presc (p : Prescaler) (s : State) : Host.Outcome State Fault Refusal :=
  .next { s with backend := { s.backend with apb1Presc := p } }

/-- ENV_SET_APB2_PRESC (45_hw_and_env_events.md R238). -/
def execEnvSetApb2Presc (p : Prescaler) (s : State) : Host.Outcome State Fault Refusal :=
  .next { s with backend := { s.backend with apb2Presc := p } }

/-- ENV_SET_TIMPRE (45_hw_and_env_events.md R239). -/
def execEnvSetTimpre (b : Bool) (s : State) : Host.Outcome State Fault Refusal :=
  .next { s with backend := { s.backend with timpre := b } }

end Sys2Proof.Machine
end

