-- ==== Sys2Proof/Machine/Registry.lean ====
section
/-! DEFINITION. The registry lookups (42_registries.md). -/

namespace Sys2Proof.Machine

/-- A lookup emits the code of the handle's identity; an index with no handle is refused (42_registries.md R152, R153). -/
def reportHandle (m : Emitter) (entry : Option ClockId) (s : State) : State :=
  match entry with
  | some id => emit m (.identity id.code) s
  | none => refuse .operandRange s

/-- REG_GPIO_HANDLE (42_registries.md R152). -/
def execRegGpioHandle (idx : Nat) (s : State) : Host.Outcome State Fault Refusal :=
  .next (reportHandle .regGpioHandle (gpioReg idx) s)

/-- REG_PERIPH_HANDLE (42_registries.md R153). -/
def execRegPeriphHandle (idx : Nat) (s : State) : Host.Outcome State Fault Refusal :=
  .next (reportHandle .regPeriphHandle (periphReg idx) s)

end Sys2Proof.Machine
end

