-- ==== Sys2Proof/Machine/Clock.lean ====
section
/-! DEFINITION. The clock-handle operations and the frequency engine (41_clock_handle.md). -/

namespace Sys2Proof.Machine

/-- CLK_IS_ENABLED's semantics: the backend's bit as it stands (41_clock_handle.md R110). -/
def reportLine (m : Emitter) (id : ClockId) (s : State) : State := emit m (.bool (lineOn s.backend id)) s

/-- CLK_ENABLE's semantics: on rtc the source selection is set to LSI, then the line is enabled, in one atomic step
(41_clock_handle.md R111, R112). -/
def enableLine (id : ClockId) (s : State) : State :=
  let b := if id = .rtc then { s.backend with rtcSrc := .lsi } else s.backend
  { s with backend := setLine b id true }

/-- CLK_DISABLE's semantics (41_clock_handle.md R113, R114). -/
def disableLine (id : ClockId) (s : State) : State := { s with backend := setLine s.backend id false }

/-- The designated timer's rule: floor division first, then the multiplier (41_clock_handle.md R118, R119). -/
def timerFreq (sys : Nat) (p : Prescaler) (timpre : Bool) : Nat :=
  match timpre, p with
  | false, .by1 => sys
  | false, .by2 => sys
  | false, p => sys / p.divisor * 2
  | true, .by1 => sys
  | true, .by2 => sys
  | true, .by4 => sys
  | true, p => sys / p.divisor * 4

/-- The frequency of an identity from one snapshot of the backend, in Hz; `none` for rtc and pwr, which have none
(41_clock_handle.md R115 to R120). -/
def frequencyOf (id : ClockId) (b : Backend) : Option Nat :=
  match id with
  | .ahb1 _ => some b.sysFreq.toNat
  | .ahb2 _ => some b.sysFreq.toNat
  | .ahb3 _ => some b.sysFreq.toNat
  | .apb1 .tim2 => some (timerFreq b.sysFreq.toNat b.apb1Presc b.timpre)
  | .apb1 _ => some (b.sysFreq.toNat / b.apb1Presc.divisor)
  | .apb2 _ => some (b.sysFreq.toNat / b.apb2Presc.divisor)
  | .rtc => none
  | .pwr => none

/-- CLK_GET_FREQUENCY's semantics: emits the frequency, or raises F_NOT_IMPLEMENTED and emits nothing
(41_clock_handle.md R115, R120). -/
def reportFrequency (id : ClockId) (s : State) : State :=
  match frequencyOf id s.backend with
  | some f => emit .clkGetFrequency (.frequency f) s
  | none => raiseFault (.notImplemented id) s

/-- CLK_CONFIGURE's semantics, performed only at micro-step H8 (41_clock_handle.md R123). -/
def configure (id : ClockId) (s : State) : State := if id = .ahb2 .rng then rngReconfigure s else s

/-- CLK_IS_ENABLED (41_clock_handle.md R110). -/
def execClkIsEnabled (id : ClockId) (s : State) : Host.Outcome State Fault Refusal :=
  .next (withHandle id (reportLine .clkIsEnabled id) s)

/-- CLK_ENABLE (41_clock_handle.md R111). -/
def execClkEnable (id : ClockId) (s : State) : Host.Outcome State Fault Refusal :=
  .next (withHandle id (enableLine id) s)

/-- CLK_DISABLE (41_clock_handle.md R113). -/
def execClkDisable (id : ClockId) (s : State) : Host.Outcome State Fault Refusal :=
  .next (withHandle id (disableLine id) s)

/-- CLK_GET_FREQUENCY (41_clock_handle.md R115). -/
def execClkGetFrequency (id : ClockId) (s : State) : Host.Outcome State Fault Refusal :=
  .next (withHandle id (reportFrequency id) s)

/-- CLK_CONFIGURE issued as a command: refused with X_INTERNAL_ONLY, after the handle check (41_clock_handle.md R123,
60_exceptions.md R259). -/
def execClkConfigure (id : ClockId) (s : State) : Host.Outcome State Fault Refusal :=
  .next (withHandle id (refuse .internalOnly) s)

end Sys2Proof.Machine
end

