-- ==== Sys2Proof/Machine/Driver.lean ====
section
/-! DEFINITION. The TRNG driver operations (43_trng_driver.md), with TRNG_CANCEL's second step. -/

namespace Sys2Proof.Machine

/-- TRNG_GET: sets IE and RNGEN in one CR write, then emits Ok (43_trng_driver.md R170). -/
def execTrngGet (s : State) : Host.Outcome State Fault Refusal :=
  .next (andThen (modifyCR (fun v => putBit (putBit v ieBit true) rngenBit true) s) fun _ t => emit .trngGet .ok t)

/-- TRNG_CANCEL, step 1: clears RNGEN; step 2 is then outstanding (43_trng_driver.md R173). Assumption log 9. -/
def execTrngCancel (s : State) : Host.Outcome State Fault Refusal :=
  .next (andThen (modifyCR (fun v => putBit v rngenBit false) s) fun _ t => { t with cancelStep2 := true })

/-- TRNG_CANCEL, step 2: clears IE, then emits Ok (43_trng_driver.md R173). -/
def cancelSecondWrite (s : State) : State :=
  andThen (modifyCR (fun v => putBit v ieBit false) s) fun _ t => emit .trngCancel .ok { t with cancelStep2 := false }

/-- TRNG_SET_CLIENT: fills the slot, replacing any client; emits nothing (43_trng_driver.md R176, R177). -/
def execTrngSetClient (c : Nat) (s : State) : Host.Outcome State Fault Refusal :=
  .next (if clientInRange c then { s with client := some c } else refuse .operandRange s)

/-- TRNG_IS_ENABLED_CLOCK: as CLK_IS_ENABLED on the driver's clock (43_trng_driver.md R178). -/
def execTrngIsEnabledClock (s : State) : Host.Outcome State Fault Refusal :=
  .next (reportLine .trngIsEnabledClock Config.drvClock s)

/-- TRNG_ENABLE_CLOCK: as CLK_ENABLE on the driver's clock (43_trng_driver.md R179). -/
def execTrngEnableClock (s : State) : Host.Outcome State Fault Refusal :=
  .next (enableLine Config.drvClock s)

/-- TRNG_DISABLE_CLOCK: as CLK_DISABLE on the driver's clock; CR, SR and DR keep their values (43_trng_driver.md R180). -/
def execTrngDisableClock (s : State) : Host.Outcome State Fault Refusal :=
  .next (disableLine Config.drvClock s)

end Sys2Proof.Machine
end

