-- ==== Sys2Proof/Machine/Interrupt.lean ====
section
/-! DEFINITION. The interrupt entry, the handler's micro-steps H1 to H11, the word sequence and the client's return
(44_trng_interrupt.md). -/

namespace Sys2Proof.Machine

/-- IRQ_ENTER (44_trng_interrupt.md R190). -/
def execIrqEnter (s : State) : Host.Outcome State Fault Refusal :=
  .next (match s.phase with
    | .idle => enterHandler s
    | .running _ => refuse .reentry s
    | .clientActive => refuse .reentry s)

/-- `hpc <- label`. -/
def goTo (label : HandlerStep) (s : State) : State := { s with phase := .running label }

/-- H1, the seed-error test: SEIS, from a fresh SR read (44_trng_interrupt.md R192). -/
def microH1 (s : State) : State :=
  andThen (regRead .sr s) fun sr t => goTo (if sr.getLsbD seisBit then .h2 else .h7) t

/-- H2, step a of ClearSR(SEIS): latches SR (44_trng_interrupt.md R193, 20_memory.md R66). -/
def microH2 (s : State) : State := andThen (regRead .sr s) fun sr t => goTo .h3 { t with hsr := sr }

/-- H3, step b of ClearSR(SEIS): writes the latch back with SEIS 0 (44_trng_interrupt.md R193). -/
def microH3 (s : State) : State :=
  andThen (regWrite .sr (putBit s.hsr seisBit false) s) fun _ t => goTo .h4 t

/-- H4 discards the current word: a DR read whose value is dropped (44_trng_interrupt.md R194). -/
def microH4 (s : State) : State := andThen (regRead .dr s) fun _ t => goTo .h5 t

/-- H5 turns the generator off (44_trng_interrupt.md R195). -/
def microH5 (s : State) : State :=
  andThen (modifyCR (fun v => putBit v rngenBit false) s) fun _ t => goTo .h6 t

/-- H6 turns the generator back on and returns (44_trng_interrupt.md R196). -/
def microH6 (s : State) : State :=
  andThen (modifyCR (fun v => putBit v rngenBit true) s) fun _ t => returnHandler t

/-- H7, the clock-error test: CEIS, from a fresh SR read (44_trng_interrupt.md R197). -/
def microH7 (s : State) : State :=
  andThen (regRead .sr s) fun sr t => goTo (if sr.getLsbD ceisBit then .h8 else .h11) t

/-- H8 invokes the recovery hook: CLK_CONFIGURE's semantics on the driver's clock handle (44_trng_interrupt.md R198). -/
def microH8 (s : State) : State := goTo .h9 (configure Config.drvClock s)

/-- H9, step a of ClearSR(CEIS): latches SR (44_trng_interrupt.md R199). -/
def microH9 (s : State) : State := andThen (regRead .sr s) fun sr t => goTo .h10 { t with hsr := sr }

/-- H10, step b of ClearSR(CEIS), and return (44_trng_interrupt.md R199). -/
def microH10 (s : State) : State :=
  andThen (regWrite .sr (putBit s.hsr ceisBit false) s) fun _ t => returnHandler t

/-- H11, the data branch: invokes the registered client with a fresh sequence, or returns (44_trng_interrupt.md R200). -/
def microH11 (s : State) : State :=
  match s.client with
  | none => returnHandler s
  | some c => { logEvent (.clientInvoked c) s with seq := .fresh, phase := .clientActive }

/-- The micro-step with a given label (44_trng_interrupt.md R191). -/
def handlerStep (label : HandlerStep) (s : State) : State :=
  match label with
  | .h1 => microH1 s
  | .h2 => microH2 s
  | .h3 => microH3 s
  | .h4 => microH4 s
  | .h5 => microH5 s
  | .h6 => microH6 s
  | .h7 => microH7 s
  | .h8 => microH8 s
  | .h9 => microH9 s
  | .h10 => microH10 s
  | .h11 => microH11 s

/-- One pull of the word sequence: an exhausted sequence yields None with no register access; else SR and, if DRDY is set,
DR are read in the one step (44_trng_interrupt.md R202, R203). -/
def pullWord (s : State) : State :=
  match s.seq with
  | .exhausted => emit .seqNext (.word none) s
  | .fresh =>
    andThen (regRead .sr s) fun sr t =>
      if sr.getLsbD drdyBit then
        andThen (regRead .dr t) fun w u => emit .seqNext (.word (some w)) u
      else emit .seqNext (.word none) { t with seq := .exhausted }

/-- SEQ_NEXT (44_trng_interrupt.md R203). -/
def execSeqNext (s : State) : Host.Outcome State Fault Refusal :=
  .next (match s.phase with
    | .clientActive => pullWord s
    | .idle => refuse .wrongPhase s
    | .running _ => refuse .wrongPhase s)

/-- The end of an invocation: the answer is logged and the handler returns (44_trng_interrupt.md R204). -/
def endInvocation (r : Answer) (s : State) : State := returnHandler (logEvent (.clientReturned r) s)

/-- CLIENT_RETURN: Done clears IE and RNGEN in one CR write first, Continue leaves CR (44_trng_interrupt.md R204 to R206). -/
def execClientReturn (r : Answer) (s : State) : Host.Outcome State Fault Refusal :=
  .next (match s.phase, r with
    | .clientActive, .more => endInvocation .more s
    | .clientActive, .done =>
      andThen (modifyCR (fun v => putBit (putBit v ieBit false) rngenBit false) s) fun _ t => endInvocation .done t
    | .idle, _ => refuse .wrongPhase s
    | .running _, _ => refuse .wrongPhase s)

end Sys2Proof.Machine
end

