-- ==== Sys2Proof/Machine/Schedule.lean ====
section
/-! DEFINITION. Whose step comes next: the interleaving of 20_memory.md R71, read from the schedule the state holds. -/

namespace Sys2Proof.Machine

/-- Is the phase Running: a handler micro-step is the thread's next step (10_state.md R38)? -/
def inHandler (s : State) : Bool :=
  match s.phase with
  | .running _ => true
  | .idle => false
  | .clientActive => false

/-- Is the thread in normal context, phase Idle (60_exceptions.md R266)? -/
def normalContext (s : State) : Bool :=
  match s.phase with
  | .idle => true
  | .running _ => false
  | .clientActive => false

/-- Has the software thread a step of its own outstanding: a micro-step, or TRNG_CANCEL's second write? -/
def threadBusy (s : State) : Bool := s.cancelStep2 || inHandler s

/-- The software thread's own next step; none is outstanding where the state is left as it is (44_trng_interrupt.md R191,
43_trng_driver.md R173). -/
def threadStep (s : State) : State :=
  if s.cancelStep2 then cancelSecondWrite s
  else match s.phase with
    | .running label => handlerStep label s
    | .idle => s
    | .clientActive => s

/-- May this operation be issued at this very step boundary? Hardware events always (20_memory.md R71 item 3, 45 R235);
IRQ_ENTER but inside a normal-context operation (R71 item 5); the thread's own words and environment events not between
TRNG_CANCEL's writes (R71 items 1 and 4); software operations not in phase Running (60_exceptions.md R263). What may not be
issued waits. So IRQ_ENTER between the writes of a TRNG_CANCEL that the client issued is issued at once, and refused with
X_REENTRY, since the phase is ClientActive (R262). Assumption log 7, 8; DEDUCED, log 17. -/
def admitsNow (i : Instr) (s : State) : Bool :=
  match agentOf i with
  | .hardware => true
  | .environment => !s.cancelStep2
  | .kernel => !(s.cancelStep2 && normalContext s)
  | .client => !s.cancelStep2
  | .software => !threadBusy s

/-- What the next step does. -/
inductive Turn where
  /-- A fault is recorded: no step is defined (60_exceptions.md R252). -/
  | stopped (f : Fault)
  /-- The thread takes its own next step, from this state. -/
  | own (s : State)
  /-- A word spells no operation and is refused, from this state (30_encoding.md R92). -/
  | reject (r : Reason) (s : State)
  /-- An operation is issued, from this state. -/
  | issue (i : Instr) (s : State)

/-- The word at the head of the schedule is issued, and leaves it. -/
def issueWord (w : Command) (rest : List Slot) (s : State) : Turn :=
  match decode w with
  | .error r => .reject r { s with queue := rest }
  | .ok i => .issue i { s with queue := rest }

/-- The word at the head of the schedule is issued at this boundary if it may be; else the thread goes on and it waits. -/
def issueIfAdmitted (w : Command) (rest : List Slot) (s : State) : Turn :=
  match decode w with
  | .error r => .reject r { s with queue := rest }
  | .ok i => if admitsNow i s then .issue i { s with queue := rest } else .own s

/-- Whose step comes next. With nothing scheduled the thread goes on until it has no step of its own outstanding
(44_trng_interrupt.md: micro-steps are always enabled). Assumption log 6, 10, 13. -/
def nextTurn (s : State) : Turn :=
  match s.faults with
  | f :: _ => .stopped f
  | [] =>
    match s.queue with
    | [] => .own s
    | .thread :: rest => .own { s with queue := rest }
    | .inOrder w :: rest => if threadBusy s then .own s else issueWord w rest s
    | .atOnce w :: rest => issueIfAdmitted w rest s

/-- The schedule with a word put at its head, to be issued at the very next boundary. -/
def scheduleWord (w : Command) (s : State) : State := { s with queue := .atOnce w :: s.queue }

end Sys2Proof.Machine
end

