-- ==== Sys2Proof/Machine/Dispatch.lean ====
section
/-! DEFINITION. The dispatch: one arm per instruction, each one direct call of its meaning. -/

namespace Sys2Proof.Machine

/-- The meaning of an instruction (30_encoding.md R89 names each one's rule). -/
def exec (i : Instr) (s : State) : Host.Outcome State Fault Refusal :=
  match i with
  | .clkIsEnabled id => Sys2Proof.Machine.execClkIsEnabled id s
  | .clkEnable id => Sys2Proof.Machine.execClkEnable id s
  | .clkDisable id => Sys2Proof.Machine.execClkDisable id s
  | .clkGetFrequency id => Sys2Proof.Machine.execClkGetFrequency id s
  | .clkConfigure id => Sys2Proof.Machine.execClkConfigure id s
  | .regGpioHandle idx => Sys2Proof.Machine.execRegGpioHandle idx s
  | .regPeriphHandle idx => Sys2Proof.Machine.execRegPeriphHandle idx s
  | .trngGet => Sys2Proof.Machine.execTrngGet s
  | .trngCancel => Sys2Proof.Machine.execTrngCancel s
  | .trngSetClient c => Sys2Proof.Machine.execTrngSetClient c s
  | .trngIsEnabledClock => Sys2Proof.Machine.execTrngIsEnabledClock s
  | .trngEnableClock => Sys2Proof.Machine.execTrngEnableClock s
  | .trngDisableClock => Sys2Proof.Machine.execTrngDisableClock s
  | .irqEnter => Sys2Proof.Machine.execIrqEnter s
  | .seqNext => Sys2Proof.Machine.execSeqNext s
  | .clientReturn r => Sys2Proof.Machine.execClientReturn r s
  | .hwDataReady w => Sys2Proof.Machine.execHwDataReady w s
  | .hwSeedError => Sys2Proof.Machine.execHwSeedError s
  | .hwClockError => Sys2Proof.Machine.execHwClockError s
  | .hwSeedCurrent b => Sys2Proof.Machine.execHwSeedCurrent b s
  | .hwClockCurrent b => Sys2Proof.Machine.execHwClockCurrent b s
  | .envSetSysfreq f => Sys2Proof.Machine.execEnvSetSysfreq f s
  | .envSetApb1Presc p => Sys2Proof.Machine.execEnvSetApb1Presc p s
  | .envSetApb2Presc p => Sys2Proof.Machine.execEnvSetApb2Presc p s
  | .envSetTimpre b => Sys2Proof.Machine.execEnvSetTimpre b s

end Sys2Proof.Machine
end

