-- ==== Sys2Proof/Machine/Step.lean ====
section
/-! DEFINITION. One step of the block, and the state in which a given word is the next to be issued. -/

namespace Sys2Proof.Machine

/-- One step: a recorded fault stops the machine (60_exceptions.md R252); else the thread goes on, a word that spells no
operation is refused (30_encoding.md R92), or an operation is performed. -/
def step (s : State) : Host.Outcome State Fault Refusal :=
  match nextTurn s with
  | .stopped f => .fault f
  | .own t => .next (threadStep t)
  | .reject r t => .next (refuse r t)
  | .issue i t => exec i t

/-- `s` with the word that spec/opcode_table.json writes as `w`, of `nbits` bits, at the head of its schedule, so that the
next step issues it. Assumption log 20. -/
def State.withFetchWord (s : State) (nbits w : Nat) : State := scheduleWord (tableCommand nbits w) s

end Sys2Proof.Machine
end

