-- ==== Sys2Proof/Safety.lean ====
section
/-! DEFINITION. What counts as a safe run, in the terms the claims use: the launch premise, a run that has not failed, and the
invariant of the state. -/

namespace Sys2Proof.Safety

open Sys2Proof.Machine

/-- The launch premise `CleanLaunch` (70_reset_and_hazards.md R283); a claim adds the clock parameters it needs. -/
def CleanLaunch (s : State) : Prop :=
  s.faults = [] ∧ s.refused = none ∧ s.phase = .idle ∧ s.out = [] ∧ s.ev = [] ∧ s.cr = 0 ∧ s.sr = 0 ∧ s.client = none

/-- The run has recorded no fault and no refusal: only then does it say anything about the block (00_scope.md R16). -/
def NotFailed (s : State) : Prop := s.faults = [] ∧ s.refused = none

/-- The observation of a run besides its final state (00_scope.md R16). -/
def observation (s : State) : List Output × List Event := (s.out, s.ev)

/-- What every reachable state satisfies: the relations between fields of the state that the spec's rules keep. -/
structure StateInv (s : State) : Prop where
  /-- Reserved CR bits are 0 (10_state.md R22). -/
  crReserved : s.cr &&& ~~~crMask = 0
  /-- Reserved SR bits are 0 (10_state.md R26). -/
  srReserved : s.sr &&& ~~~srMask = 0
  /-- The handler's latch holds an SR value (10_state.md R40). -/
  hsrReserved : s.hsr &&& ~~~srMask = 0
  /-- A registered client is a legal ClientId (00_scope.md R9). -/
  clientLegal : ∀ c, s.client = some c → 1 ≤ c ∧ c ≤ 255
  /-- DRDY is set only by the event that loads DR (10_state.md R29, R31). -/
  drdyLoaded : drdySet s = true → s.drLoaded = true
  /-- ClientActive is entered only with a client registered, and the slot is never emptied (10_state.md R36). -/
  activeHasClient : s.phase = .clientActive → s.client ≠ none
  /-- The handler is not entered between TRNG_CANCEL's writes (20_memory.md R71 item 5). -/
  cancelOutsideHandler : s.cancelStep2 = true → inHandler s = false
  /-- No step is defined after a fault, so at most one is recorded (60_exceptions.md R252). -/
  oneFault : s.faults.length ≤ 1

/-- An invocation of the client is open exactly while its ClientInvoked is the last event logged (44_trng_interrupt.md R200,
R204). -/
def InvocationLogged (s : State) : Prop := s.phase = .clientActive ↔ ∃ c, s.ev.getLast? = some (.clientInvoked c)

/-- `k` steps, stopping at the first that does not answer a next state. -/
def steps (k : Nat) (s : State) : Host.Outcome State Fault Refusal :=
  match k with
  | 0 => .next s
  | k + 1 =>
    match step s with
    | .next t => steps k t
    | .fault f => .fault f
    | .refused r => .refused r

end Sys2Proof.Safety
end

