-- ==== Sys2Proof/Certificates/Slice0/Obligations.lean ====
section
/-! DEFINITION. The statements about the block. Each docstring names the rule of spec/ it formalises. A statement that gives
the next state as `s` with some fields replaced says in the same equation that every other field is unchanged. -/

open Sys2Proof Sys2Proof.Machine Sys2Proof.Safety

/-! ## Encoding -/

/-- Decoding an encoded well-formed instruction gives it back, with every operand (30_encoding.md R87 to R92). -/
def Obligations.DecodeOfEncodeIsTheInstruction : Prop :=
  ∀ i : Instr, i.wellFormed = true → decode (encode i) = .ok i

/-- Every command word that decodes is the encoding of what it decodes to: no two words spell one operation
(30_encoding.md R87 to R92). -/
def Obligations.EncodeOfDecodeIsTheWord : Prop :=
  ∀ (w : Command) (i : Instr), decode w = .ok i → encode i = w

/-- Words written out in 30_encoding.md R94 decode to the operations they stand for. -/
def Obligations.WordsOfTheSyntaxTableDecode : Prop :=
  decode 0x02A000000000 = .ok (.clkEnable .rtc) ∧
  decode 0x036600000000 = .ok (.clkDisable (.apb1 .dac)) ∧
  decode 0x046000000000 = .ok (.clkGetFrequency (.apb1 .tim2)) ∧
  decode 0x110C00000000 = .ok (.regPeriphHandle 12) ∧
  decode 0x220100000000 = .ok (.trngSetClient 1) ∧
  decode 0x400000000000 = .ok .irqEnter ∧
  decode 0x420100000000 = .ok (.clientReturn .done) ∧
  decode 0x8000DEADBEEF = .ok (.hwDataReady 0xDEADBEEF) ∧
  decode 0x900000F42400 = .ok (.envSetSysfreq 16000000) ∧
  decode 0x910400000000 = .ok (.envSetApb1Presc .by4)

/-- The opcodes of the map (30_encoding.md R89), by format (R88). -/
def Sys2Proof.Safety.formatOpcodes : List (Char × List Nat) :=
  [('N', [0x20, 0x21, 0x23, 0x24, 0x25, 0x40, 0x41, 0x81, 0x82]), ('I', [0x01, 0x02, 0x03, 0x04, 0x05]),
   ('X', [0x10, 0x11]), ('C', [0x22]), ('B', [0x42, 0x83, 0x84, 0x93]), ('P', [0x91, 0x92]), ('W', [0x80, 0x90])]

/-- The checks of decoding, in their order, for every command word (30_encoding.md R92): each clause fixes the outcome of
the checks before it. -/
def Obligations.DecodeChecksInOrder : Prop :=
  ∀ (o p : Byte) (d : Word),
    ((∀ f ∈ formatOpcodes, o.toNat ∉ f.2) → decode (packCommand o p d) = .error .reservedOpcode) ∧
    ((∃ f ∈ formatOpcodes, o.toNat ∈ f.2 ∧
        ((f.1 ≠ 'W' ∧ d ≠ 0) ∨ ((f.1 = 'N' ∨ f.1 = 'W') ∧ p ≠ 0))) →
      decode (packCommand o p d) = .error .nonzeroField) ∧
    (o.toNat ∈ [0x01, 0x02, 0x03, 0x04, 0x05] → d = 0 →
      ((∀ id : ClockId, id.code ≠ p) → decode (packCommand o p d) = .error .reservedIdentity) ∧
      (p = 0x21 → decode (packCommand o p d) = .error .noHandle) ∧
      (∀ id : ClockId, id.code = p → id ≠ .ahb2 .otgfs → ∃ i, decode (packCommand o p d) = .ok i)) ∧
    (o.toNat ∈ [0x10] → d = 0 →
      if p.toNat ≤ 7 then ∃ i, decode (packCommand o p d) = .ok i
      else decode (packCommand o p d) = .error .operandRange) ∧
    (o.toNat ∈ [0x11] → d = 0 →
      if p.toNat ≤ 15 then ∃ i, decode (packCommand o p d) = .ok i
      else decode (packCommand o p d) = .error .operandRange) ∧
    (o.toNat ∈ [0x22] → d = 0 →
      if p = 0 then decode (packCommand o p d) = .error .operandRange
      else ∃ i, decode (packCommand o p d) = .ok i) ∧
    (o.toNat ∈ [0x42, 0x83, 0x84, 0x93] → d = 0 →
      if p.toNat ≤ 1 then ∃ i, decode (packCommand o p d) = .ok i
      else decode (packCommand o p d) = .error .operandRange) ∧
    (o.toNat ∈ [0x91, 0x92] → d = 0 →
      if p.toNat ∈ [1, 2, 4, 8, 16] then ∃ i, decode (packCommand o p d) = .ok i
      else decode (packCommand o p d) = .error .operandRange) ∧
    (o.toNat ∈ [0x20, 0x21, 0x23, 0x24, 0x25, 0x40, 0x41, 0x81, 0x82] → p = 0 → d = 0 →
      ∃ i, decode (packCommand o p d) = .ok i) ∧
    (o.toNat ∈ [0x80, 0x90] → p = 0 → ∃ i, decode (packCommand o p d) = .ok i)

/-- The identities with a handle are the image of the two registries: every identity but ahb2.otgfs, 24 in all; a CLK_*
word that names any other is refused with X_NO_HANDLE (42_registries.md R155). -/
def Obligations.HandledIsTheImageOfTheRegistries : Prop :=
  (∀ id : ClockId, id.hasHandle = true ↔ ((∃ k, gpioReg k = some id) ∨ (∃ k, periphReg k = some id))) ∧
  (∀ id : ClockId, id.hasHandle = true ↔ id ≠ .ahb2 .otgfs) ∧
  (handledIds.Nodup ∧ handledIds.length = 24 ∧ ∀ id : ClockId, id ∈ handledIds ↔ id.hasHandle = true) ∧
  (∀ id : ClockId, id.hasHandle = false → ∀ o : Byte, o.toNat ∈ [0x01, 0x02, 0x03, 0x04, 0x05] →
    decode (packCommand o id.code 0) = .error .noHandle)

/-- An operation asked for an operand that no word of it encodes is refused under the decoder's reason and does nothing else:
a CLK_* operation on an identity with no handle, a registry index past the last handle, a client outside 1..255. That the
meaning refuses what the decoder has refused already is the model's choice, assumption log 16 (60_exceptions.md R255, R256,
R259). -/
def Obligations.OperandsOutsideTheEncodingAreRefused : Prop :=
  (∀ (id : ClockId) (s : State), id.hasHandle = false →
    ∀ i ∈ [Instr.clkIsEnabled id, .clkEnable id, .clkDisable id, .clkGetFrequency id, .clkConfigure id],
      exec i s = .next { s with refused := some (s.refused.getD .noHandle) }) ∧
  (∀ (idx : Nat) (s : State), 7 < idx →
    exec (.regGpioHandle idx) s = .next { s with refused := some (s.refused.getD .operandRange) }) ∧
  (∀ (idx : Nat) (s : State), 15 < idx →
    exec (.regPeriphHandle idx) s = .next { s with refused := some (s.refused.getD .operandRange) }) ∧
  (∀ (c : Nat) (s : State), c = 0 ∨ 255 < c →
    exec (.trngSetClient c) s = .next { s with refused := some (s.refused.getD .operandRange) })

/-! ## The step and its interleaving -/

/-- A step runs the decoded instruction: where no fault is recorded and the word at the head of the schedule may be issued,
the step takes it off the schedule and is `exec` of what it decodes to; `withFetchWord` puts a word there (20_memory.md
R71; the schedule is the model's, assumption log 6). -/
def Obligations.StepRunsTheDecodedInstruction : Prop :=
  ∀ (s : State) (w : Command) (i : Instr) (rest : List Slot), s.faults = [] → decode w = .ok i →
    (s.queue = .atOnce w :: rest → admitsNow i s = true → step s = exec i { s with queue := rest }) ∧
    (s.queue = .inOrder w :: rest → threadBusy s = false → step s = exec i { s with queue := rest }) ∧
    (admitsNow i s = true → ∀ nbits n, tableCommand nbits n = w → step (s.withFetchWord nbits n) = exec i s)

/-- A word that spells no operation is refused, under the decoder's reason, and nothing else happens (30_encoding.md R92,
60_exceptions.md R256). -/
def Obligations.StepRefusesAWordThatDoesNotDecode : Prop :=
  ∀ (s : State) (w : Command) (r : Reason) (rest : List Slot), s.faults = [] → decode w = .error r →
    (s.queue = .atOnce w :: rest ∨ (s.queue = .inOrder w :: rest ∧ threadBusy s = false)) →
    step s = .next { s with queue := rest, refused := some (s.refused.getD r) }

/-- A hardware event takes place at any step boundary, in every phase, between TRNG_CANCEL's writes and whatever the
registers and the clocks hold (45_hw_and_env_events.md R235, 20_memory.md R71 item 3). -/
def Obligations.HardwareEventsTakePlaceAtAnyBoundary : Prop :=
  ∀ (s : State) (i : Instr) (rest : List Slot), s.faults = [] → agentOf i = .hardware →
    s.queue = .atOnce (encode i) :: rest → step s = exec i { s with queue := rest }

/-- Between TRNG_CANCEL's writes nothing but a hardware event has an effect. IRQ_ENTER is held back in normal context; inside a
TRNG_CANCEL that the client issued it is refused with X_REENTRY at once. Any other word waits, and the step is the second
write (20_memory.md R71 items 1, 4 and 5, 60_exceptions.md R262). That a word waits is the model's choice, assumption log 7;
that environment events are held back and that the refusal comes at once are deduced, log 8 and 17; the place between the
writes is the field `cancelStep2`, log 9. -/
def Obligations.NothingElseSplitsTrngCancel : Prop :=
  (∀ (s : State) (w : Command) (i : Instr) (rest : List Slot), s.faults = [] → s.cancelStep2 = true →
    decode w = .ok i → agentOf i ≠ .hardware → (agentOf i = .kernel → s.phase = .idle) →
    s.queue = .atOnce w :: rest → step s = .next (cancelSecondWrite s)) ∧
  (∀ (s : State) (w : Command) (rest : List Slot), s.faults = [] → s.cancelStep2 = true →
    s.queue = .inOrder w :: rest → step s = .next (cancelSecondWrite s)) ∧
  (∀ (s : State) (rest : List Slot), s.faults = [] → s.phase ≠ .idle →
    s.queue = .atOnce (encode .irqEnter) :: rest →
    step s = .next { s with queue := rest, refused := some (s.refused.getD .reentry) }) ∧
  (∀ s : State, admitsNow .irqEnter s = true ↔ (s.cancelStep2 = false ∨ s.phase ≠ .idle)) ∧
  (∀ (i : Instr) (s : State), agentOf i = .environment → (admitsNow i s = true ↔ s.cancelStep2 = false))

/-- In phase Running no software operation is issued: the step is the micro-step, and the word waits
(60_exceptions.md R263, 20_memory.md R71 item 6). -/
def Obligations.NoSoftwareOperationInPhaseRunning : Prop :=
  ∀ (s : State) (label : HandlerStep) (w : Command) (i : Instr) (rest : List Slot), s.faults = [] →
    s.cancelStep2 = false → s.phase = .running label → decode w = .ok i → agentOf i = .software →
    (s.queue = .atOnce w :: rest ∨ s.queue = .inOrder w :: rest) → step s = .next (handlerStep label s)

/-- No step is defined after a fault: the machine stops with the fault that is recorded (60_exceptions.md R252). -/
def Obligations.NoStepAfterAFault : Prop :=
  ∀ (s : State) (f : Fault) (rest : List Fault), s.faults = f :: rest → step s = .fault f

/-! ## Reset and invariants -/

/-- What reset leaves (70_reset_and_hazards.md R280): the backend holds the launch parameters. -/
def Obligations.ResetLeavesTheStatedValues : Prop :=
  State.reset.cr = 0 ∧ driverState State.reset = .disabled ∧ cedSet State.reset = false ∧ State.reset.sr = 0 ∧
  (State.reset.drLoaded = false ∧ drWord State.reset = Config.draw State.reset.draws) ∧
  (∀ id : ClockId, id.hasHandle = true → lineOn State.reset.backend id = Config.resetClkEnabled id) ∧
  State.reset.backend.rtcSrc = Config.resetRtcSrc ∧
  State.reset.backend.sysFreq = Config.initSysFreq ∧ State.reset.backend.apb1Presc = Config.initApb1Presc ∧
  State.reset.backend.apb2Presc = Config.initApb2Presc ∧ State.reset.backend.timpre = Config.initTimpre ∧
  State.reset.client = none ∧ State.reset.phase = .idle ∧ State.reset.out = [] ∧ State.reset.ev = [] ∧
  State.reset.faults = [] ∧ State.reset.refused = none

/-- The reset state meets the invariants, and is a clean launch (70_reset_and_hazards.md R283). -/
def Obligations.ResetMeetsTheInvariants : Prop :=
  StateInv State.reset ∧ InvocationLogged State.reset ∧ CleanLaunch State.reset

/-- Every step keeps the invariant: reserved bits stay 0, the client stays legal, DRDY implies a loaded DR, ClientActive
implies a client, the handler is not entered inside TRNG_CANCEL, and at most one fault is recorded. -/
def Obligations.EveryStepKeepsTheInvariant : Prop :=
  ∀ s t : State, StateInv s → step s = .next t → StateInv t

/-- Every step keeps: an invocation is open exactly while its ClientInvoked is the last event logged
(44_trng_interrupt.md R200, R204). -/
def Obligations.EveryStepKeepsTheInvocationLogged : Prop :=
  ∀ s t : State, InvocationLogged s → step s = .next t → InvocationLogged t

/-- No operation writes CED: every step keeps it, it is 0 at reset, and a clock error is recorded whatever it holds
(10_state.md R25). -/
def Obligations.NoStepWritesCed : Prop :=
  (∀ s t : State, step s = .next t → cedSet t = cedSet s) ∧ cedSet State.reset = false ∧
  (∀ s : State, ∃ t, exec .hwClockError s = .next t ∧ ceisSet t = true)

/-- Faults and the refusal mark are sticky: no operation and no step of the thread removes one, and both are empty at reset
(10_state.md R43). -/
def Obligations.FaultsAndRefusalAreSticky : Prop :=
  (∀ (i : Instr) (s t : State), exec i s = .next t →
    (∀ f ∈ s.faults, f ∈ t.faults) ∧ (∀ r, s.refused = some r → t.refused = some r)) ∧
  (∀ s : State, (∀ f ∈ s.faults, f ∈ (threadStep s).faults) ∧ (threadStep s).refused = s.refused) ∧
  (∀ s t : State, step s = .next t → ∀ r, s.refused = some r → t.refused = some r) ∧
  State.reset.faults = [] ∧ State.reset.refused = none

/-- The output trace and the event log only grow (10_state.md R41, R42). -/
def Obligations.TracesOnlyGrow : Prop :=
  ∀ s t : State, step s = .next t → s.out <+: t.out ∧ s.ev <+: t.ev

/-- Only TRNG_GET, TRNG_CANCEL, CLIENT_RETURN Done, TRNG_CANCEL's second write, H5 and H6 change CR
(10_state.md R22 to R24). -/
def Obligations.OnlyTheDriverAndTheHandlerChangeCr : Prop :=
  (∀ (i : Instr) (s t : State), exec i s = .next t →
    i ≠ .trngGet → i ≠ .trngCancel → i ≠ .clientReturn .done → t.cr = s.cr) ∧
  (∀ s : State, s.cancelStep2 = false → s.phase ≠ .running .h5 → s.phase ≠ .running .h6 →
    (threadStep s).cr = s.cr)

/-- SR changes only by its own events, by SEQ_NEXT's DR read (DRDY), by H4 (DRDY) and by the SR writes of H3 and H10 (SEIS
and CEIS), which set no bit (10_state.md R27 to R30). -/
def Obligations.EachSrBitHasItsWriters : Prop :=
  (∀ (i : Instr) (s t : State), exec i s = .next t →
    (i ≠ .hwSeedError → seisSet t = seisSet s) ∧ (i ≠ .hwClockError → ceisSet t = ceisSet s) ∧
    ((∀ b, i ≠ .hwSeedCurrent b) → t.sr.getLsbD secsBit = s.sr.getLsbD secsBit) ∧
    ((∀ b, i ≠ .hwClockCurrent b) → t.sr.getLsbD cecsBit = s.sr.getLsbD cecsBit) ∧
    ((∀ w, i ≠ .hwDataReady w) → i ≠ .seqNext → drdySet t = drdySet s)) ∧
  (∀ s : State,
    (threadStep s).sr.getLsbD secsBit = s.sr.getLsbD secsBit ∧
    (threadStep s).sr.getLsbD cecsBit = s.sr.getLsbD cecsBit ∧
    (∀ k, (threadStep s).sr.getLsbD k = true → s.sr.getLsbD k = true) ∧
    (s.cancelStep2 = true ∨ (s.phase ≠ .running .h3 ∧ s.phase ≠ .running .h10) →
      seisSet (threadStep s) = seisSet s ∧ ceisSet (threadStep s) = ceisSet s) ∧
    (s.cancelStep2 = true ∨ s.phase ≠ .running .h4 → drdySet (threadStep s) = drdySet s))

/-- The registered client is written by TRNG_SET_CLIENT alone, and is never removed (10_state.md R36,
43_trng_driver.md R177). -/
def Obligations.OnlySetClientWritesTheClient : Prop :=
  (∀ (i : Instr) (s t : State), exec i s = .next t →
    t.client = s.client ∨ ∃ c, i = .trngSetClient c ∧ t.client = some c) ∧
  (∀ s : State, (threadStep s).client = s.client)

/-- The clock configuration is written by the ENV events alone, and, where an effect of the RNG reconfiguration is listed,
by H8 (10_state.md R34; assumption log 12). -/
def Obligations.OnlyEnvironmentEventsWriteTheClockConfiguration : Prop :=
  (∀ (i : Instr) (s t : State), exec i s = .next t → agentOf i ≠ .environment →
    t.backend.sysFreq = s.backend.sysFreq ∧ t.backend.apb1Presc = s.backend.apb1Presc ∧
    t.backend.apb2Presc = s.backend.apb2Presc ∧ t.backend.timpre = s.backend.timpre) ∧
  (∀ s : State, s.reconfigEffects = [] ∨ s.phase ≠ .running .h8 → (threadStep s).backend = s.backend)

/-! ## Clock-handle operations and the frequency engine -/

/-- CLK_IS_ENABLED emits the line's bit as it stands and changes nothing else (41_clock_handle.md R110). -/
def Obligations.ClkIsEnabledEmitsTheBit : Prop :=
  ∀ (id : ClockId) (s : State), id.hasHandle = true →
    exec (.clkIsEnabled id) s =
      .next { s with out := s.out ++ [{ mnemonic := .clkIsEnabled, result := .bool (lineOn s.backend id) }] }

/-- CLK_ENABLE sets the line's bit, on rtc selects LSI, and changes nothing else: no other line, no other field
(41_clock_handle.md R111). -/
def Obligations.ClkEnableSetsTheLine : Prop :=
  ∀ (id : ClockId) (s : State), id.hasHandle = true →
    ∃ b : Backend, exec (.clkEnable id) s = .next { s with backend := b } ∧
      lineOn b id = true ∧ (∀ other, other ≠ id → lineOn b other = lineOn s.backend other) ∧
      b.rtcSrc = (if id = .rtc then .lsi else s.backend.rtcSrc) ∧
      b.sysFreq = s.backend.sysFreq ∧ b.apb1Presc = s.backend.apb1Presc ∧ b.apb2Presc = s.backend.apb2Presc ∧
      b.timpre = s.backend.timpre

/-- CLK_DISABLE clears the line's bit and changes nothing else; on rtc the source is left (41_clock_handle.md R113, R114). -/
def Obligations.ClkDisableClearsTheLine : Prop :=
  ∀ (id : ClockId) (s : State), id.hasHandle = true →
    ∃ b : Backend, exec (.clkDisable id) s = .next { s with backend := b } ∧
      lineOn b id = false ∧ (∀ other, other ≠ id → lineOn b other = lineOn s.backend other) ∧
      b.rtcSrc = s.backend.rtcSrc ∧ b.sysFreq = s.backend.sysFreq ∧ b.apb1Presc = s.backend.apb1Presc ∧
      b.apb2Presc = s.backend.apb2Presc ∧ b.timpre = s.backend.timpre

/-- Repeating TRNG_GET writes the same CR; TRNG_CANCEL from Disabled leaves CR as it is; repeating CLK_ENABLE, or CLK_DISABLE,
changes nothing at all (20_memory.md R68, 41_clock_handle.md R114). The premise on CR is that its reserved bits are 0. -/
def Obligations.RepeatedOperationsAreIdempotent : Prop :=
  (∀ s t u : State, exec .trngGet s = .next t → exec .trngGet t = .next u → u.cr = t.cr) ∧
  (∀ s t : State, s.cr &&& ~~~crMask = 0 → driverState s = .disabled → exec .trngCancel s = .next t →
    t.cr = s.cr ∧ (threadStep t).cr = s.cr) ∧
  (∀ (id : ClockId) (s t : State),
    (exec (.clkEnable id) s = .next t → exec (.clkEnable id) t = .next t) ∧
    (exec (.clkDisable id) s = .next t → exec (.clkDisable id) t = .next t))

/-- CLK_GET_FREQUENCY emits the frequency that one snapshot of the backend gives, and changes nothing else
(41_clock_handle.md R116 to R119; R115). -/
def Obligations.ClkGetFrequencyEmitsTheFrequency : Prop :=
  ∀ (id : ClockId) (s : State), id.hasHandle = true → id ≠ .rtc → id ≠ .pwr →
    ∃ f : Nat,
      exec (.clkGetFrequency id) s =
        .next { s with out := s.out ++ [{ mnemonic := .clkGetFrequency, result := .frequency f }] } ∧
      (id.family.toNat ≤ 2 → f = s.backend.sysFreq.toNat) ∧
      (id.family = 3 → id ≠ .apb1 .tim2 → f = s.backend.sysFreq.toNat / s.backend.apb1Presc.divisor) ∧
      (id.family = 4 → f = s.backend.sysFreq.toNat / s.backend.apb2Presc.divisor) ∧
      (id = .apb1 .tim2 → s.backend.timpre = false →
        f = if s.backend.apb1Presc.divisor ∈ [1, 2] then s.backend.sysFreq.toNat
            else s.backend.sysFreq.toNat / s.backend.apb1Presc.divisor * 2) ∧
      (id = .apb1 .tim2 → s.backend.timpre = true →
        f = if s.backend.apb1Presc.divisor ∈ [1, 2, 4] then s.backend.sysFreq.toNat
            else s.backend.sysFreq.toNat / s.backend.apb1Presc.divisor * 4)

/-- CLK_GET_FREQUENCY on rtc and pwr raises F_NOT_IMPLEMENTED, which records the identity, and emits nothing
(41_clock_handle.md R120, 60_exceptions.md R251). -/
def Obligations.RtcAndPwrHaveNoFrequency : Prop :=
  ∀ (id : ClockId) (s : State), id = .rtc ∨ id = .pwr → s.faults = [] →
    exec (.clkGetFrequency id) s = .next { s with faults := [.notImplemented id] } ∧
    faultCode (.notImplemented id) = 0x01 ∧ faultValue (.notImplemented id) = id.code.setWidth 32

/-- Every frequency is at most the system frequency, so it fits FREQ_WIDTH bits (41_clock_handle.md R121). -/
def Obligations.FrequencyIsAtMostTheSystemFrequency : Prop :=
  ∀ (id : ClockId) (b : Backend) (f : Nat), frequencyOf id b = some f →
    f ≤ b.sysFreq.toNat ∧ f < 2 ^ Config.freqWidth

/-- The frequency table for a system frequency that 16 divides (41_clock_handle.md R122). -/
def Obligations.FrequencyTableForMultiplesOfSixteen : Prop :=
  ∀ (b : Backend) (k : Nat), b.sysFreq.toNat = 16 * k →
    (∀ p : Apb1, p ≠ .tim2 → ∃ f, frequencyOf (.apb1 p) b = some f ∧ f * b.apb1Presc.divisor = 16 * k) ∧
    frequencyOf (.apb1 .tim2) b = some (match b.timpre, b.apb1Presc with
      | false, .by1 => 16 * k
      | false, .by2 => 16 * k
      | false, .by4 => 8 * k
      | false, .by8 => 4 * k
      | false, .by16 => 2 * k
      | true, .by1 => 16 * k
      | true, .by2 => 16 * k
      | true, .by4 => 16 * k
      | true, .by8 => 8 * k
      | true, .by16 => 4 * k)

/-- The frequency does not depend on any enable bit or on the RTC source, and is the same each time it is read
(41_clock_handle.md R114 item 4, R122 item 5). -/
def Obligations.FrequencyIgnoresTheEnableBits : Prop :=
  ∀ (id other : ClockId) (s t : State), exec (.clkDisable other) s = .next t ∨ exec (.clkEnable other) s = .next t →
    frequencyOf id t.backend = frequencyOf id s.backend

/-- CLK_CONFIGURE issued as a command is refused with X_INTERNAL_ONLY and has no other effect; its semantics, which H8
performs, logs RngReconfigure and applies the hook's effect on ahb2.rng, and does nothing on any other identity
(41_clock_handle.md R123, R124; assumption log 12). -/
def Obligations.ClkConfigureIsInternal : Prop :=
  (∀ (id : ClockId) (s : State), id.hasHandle = true →
    exec (.clkConfigure id) s = .next { s with refused := some (s.refused.getD .internalOnly) }) ∧
  (∀ (id : ClockId) (s : State), id ≠ .ahb2 .rng → configure id s = s) ∧
  (∀ s : State, handlerStep .h8 s = goTo .h9 (configure (.ahb2 .rng) s)) ∧
  (∀ s : State, s.reconfigEffects = [] →
    configure (.ahb2 .rng) s = { s with ev := s.ev ++ [.rngReconfigure] }) ∧
  (∀ (s : State) (b : Backend) (rest : List Backend), s.reconfigEffects = b :: rest →
    configure (.ahb2 .rng) s =
      { s with ev := s.ev ++ [.rngReconfigure], backend := b, reconfigEffects := rest })

/-! ## Registries -/

/-- The registry lookups emit the code of the handle at the index and change nothing else; a word with a larger index is
refused at decode (42_registries.md R150 to R153). -/
def Obligations.RegistryLookupsEmitTheIdentity : Prop :=
  (∀ (k : Nat) (code : Byte) (s : State),
    (([0x02, 0x03, 0x04, 0x05, 0x06, 0x07, 0x08, 0x09] : List Byte)[k]? = some code →
      exec (.regGpioHandle k) s =
        .next { s with out := s.out ++ [{ mnemonic := .regGpioHandle, result := .identity code }] }) ∧
    (([0x81, 0x65, 0x66, 0x00, 0x01, 0x40, 0x64, 0xC0, 0xA0, 0x82, 0x63, 0x60, 0x20, 0x80, 0x61, 0x62] : List Byte)[k]? =
        some code →
      exec (.regPeriphHandle k) s =
        .next { s with out := s.out ++ [{ mnemonic := .regPeriphHandle, result := .identity code }] })) ∧
  (∀ idx : Byte, 7 < idx.toNat → decode (packCommand 0x10 idx 0) = .error .operandRange) ∧
  (∀ idx : Byte, 15 < idx.toNat → decode (packCommand 0x11 idx 0) = .error .operandRange)

/-! ## TRNG registers -/

/-- The address space: the three registers at RNG_BASE + 0, 4, 8, at multiples of 4, and no other (20_memory.md R60, R62,
R63, R70). -/
def Obligations.TheRegisterBlockHasThreeAddresses : Prop :=
  ∀ (s : State) (v : Word),
    (∀ r : Reg, memRead (Config.rngBase + regOffset r) s = some (regRead r s) ∧
      memWrite (Config.rngBase + regOffset r) v s = some (regWrite r v s) ∧ (regAddress r).toNat % 4 = 0) ∧
    (∀ addr : Word, addr ≠ Config.rngBase → addr ≠ Config.rngBase + 4 → addr ≠ Config.rngBase + 8 →
      memRead addr s = none ∧ memWrite addr v s = none)

/-- `MemRead` at the three register addresses, with the RNG clock enabled and gated, and at any other address, where it is
not defined (20_memory.md R62). -/
def Obligations.RegisterReads : Prop :=
  ∀ s : State,
    (lineOn s.backend (.ahb2 .rng) = true →
      memRead Config.rngBase s = some (.done (s.cr &&& 0x2C) s) ∧
      memRead (Config.rngBase + 4) s = some (.done (s.sr &&& 0x67) s) ∧
      memRead (Config.rngBase + 8) s = some (.done (if s.drLoaded then s.dr else Config.draw s.draws)
        { s with sr := s.sr &&& 0xFFFFFFFE, draws := if s.drLoaded then s.draws else s.draws + 1 })) ∧
    (lineOn s.backend (.ahb2 .rng) = false → ∀ r : Reg,
      memRead (Config.rngBase + regOffset r) s = some (.faulted { s with
        faults := if Fault.rngClockGated r ∈ s.faults then s.faults else s.faults ++ [.rngClockGated r] })) ∧
    (∀ addr : Word, addr ≠ Config.rngBase → addr ≠ Config.rngBase + 4 → addr ≠ Config.rngBase + 8 →
      memRead addr s = none)

/-- `MemWrite` at the three register addresses: CR keeps its three fields of the word, SR loses SEIS and CEIS where the word
carries 0, DR is left; with the RNG clock gated each faults (20_memory.md R63). -/
def Obligations.RegisterWrites : Prop :=
  ∀ (s : State) (v : Word),
    (lineOn s.backend (.ahb2 .rng) = true →
      memWrite Config.rngBase v s = some (.done () { s with cr := v &&& 0x2C }) ∧
      memWrite (Config.rngBase + 4) v s = some (.done () { s with sr := s.sr &&& (v ||| 0xFFFFFF9F) }) ∧
      memWrite (Config.rngBase + 8) v s = some (.done () s)) ∧
    (lineOn s.backend (.ahb2 .rng) = false → ∀ r : Reg,
      memWrite (Config.rngBase + regOffset r) v s = some (.faulted { s with
        faults := if Fault.rngClockGated r ∈ s.faults then s.faults else s.faults ++ [.rngClockGated r] }))

/-- With the RNG clock gated, every operation and micro-step that accesses a TRNG register raises F_RNG_CLOCK_GATED and has
no other effect; CLK_* operations on other identities leave CR, SR, DR and the fault alone (20_memory.md R77,
60_exceptions.md R253). -/
def Obligations.GatedRegisterAccessFaults : Prop :=
  ∀ s : State,
    (lineOn s.backend (.ahb2 .rng) = false → s.faults = [] →
      exec .trngGet s = .next { s with faults := [.rngClockGated .cr] } ∧
      exec .trngCancel s = .next { s with faults := [.rngClockGated .cr] } ∧
      (s.phase = .clientActive → s.seq = .fresh → exec .seqNext s = .next { s with faults := [.rngClockGated .sr] }) ∧
      (s.phase = .clientActive → exec (.clientReturn .done) s = .next { s with faults := [.rngClockGated .cr] }) ∧
      cancelSecondWrite s = { s with faults := [.rngClockGated .cr] } ∧
      (∀ label, label ≠ .h8 → label ≠ .h11 →
        handlerStep label s = { s with faults := [.rngClockGated
          (if label = .h4 then .dr else if label = .h5 ∨ label = .h6 then .cr else .sr)] })) ∧
    (∀ id : ClockId, id ≠ .ahb2 .rng →
      ∀ i ∈ [Instr.clkIsEnabled id, .clkEnable id, .clkDisable id, .clkGetFrequency id, .clkConfigure id],
        ∃ t, exec i s = .next t ∧ t.cr = s.cr ∧ t.sr = s.sr ∧ t.dr = s.dr ∧ t.drLoaded = s.drLoaded ∧
          rngClockOn t = rngClockOn s ∧ ∀ r, Fault.rngClockGated r ∈ t.faults → Fault.rngClockGated r ∈ s.faults)

/-- The interrupt line is IE with DRDY, SEIS or CEIS, computed from CR and SR; no value of it forbids an IRQ_ENTER
(60_exceptions.md R260). -/
def Obligations.InterruptLineFormula : Prop :=
  (∀ s : State, irqLine s = true ↔
    (s.cr &&& 0x8 ≠ 0 ∧ (s.sr &&& 0x1 ≠ 0 ∨ s.sr &&& 0x40 ≠ 0 ∨ s.sr &&& 0x20 ≠ 0))) ∧
  (∀ s : State, irqLine s = false → s.phase = .idle → exec .irqEnter s = .next { s with phase := .running .h1 })

/-! ## TRNG driver -/

/-- TRNG_GET with the RNG clock enabled sets IE and RNGEN, keeps CED, emits Ok and changes nothing else; with it gated it
raises F_RNG_CLOCK_GATED and does nothing else (43_trng_driver.md R170). -/
def Obligations.TrngGetArms : Prop :=
  ∀ s : State,
    (lineOn s.backend (.ahb2 .rng) = true →
      exec .trngGet s = .next { s with
        cr := (s.cr &&& 0x20) ||| 0x0C, out := s.out ++ [{ mnemonic := .trngGet, result := .ok }] }) ∧
    (lineOn s.backend (.ahb2 .rng) = false → s.faults = [] →
      exec .trngGet s = .next { s with faults := [.rngClockGated .cr] })

/-- TRNG_CANCEL with the RNG clock enabled clears RNGEN in its first step; its second step clears IE and emits Ok; CED is
kept and nothing else changes. With the clock gated it raises F_RNG_CLOCK_GATED, and no second step is outstanding
(43_trng_driver.md R173, 60_exceptions.md R259). That the field `cancelStep2` says that the second step is outstanding is the
model's choice, assumption log 9. -/
def Obligations.TrngCancelIsTwoWrites : Prop :=
  ∀ s : State,
    (lineOn s.backend (.ahb2 .rng) = true →
      ∃ t, exec .trngCancel s = .next t ∧ t = { s with cr := s.cr &&& 0x28, cancelStep2 := true } ∧
        threadStep t = { s with
          cr := s.cr &&& 0x20, cancelStep2 := false, out := s.out ++ [{ mnemonic := .trngCancel, result := .ok }] }) ∧
    (lineOn s.backend (.ahb2 .rng) = false → s.faults = [] →
      exec .trngCancel s = .next { s with faults := [.rngClockGated .cr] }) ∧
    (∀ i : Instr, agentOf i = .hardware → admitsNow i { s with cancelStep2 := true } = true)

/-- TRNG_CANCEL run from a free thread takes two steps, and a seed error between them is recorded and kept
(43_trng_driver.md R173, R174; 70_reset_and_hazards.md R291). -/
def Obligations.TrngCancelRunsInTwoSteps : Prop :=
  ∀ (s : State) (rest : List Slot), lineOn s.backend (.ahb2 .rng) = true → s.faults = [] → threadBusy s = false →
    (s.queue = .inOrder (encode .trngCancel) :: .thread :: rest →
      steps 2 s = .next { s with
        cr := s.cr &&& 0x20, queue := rest, out := s.out ++ [{ mnemonic := .trngCancel, result := .ok }] }) ∧
    (s.queue = .inOrder (encode .trngCancel) :: .atOnce (encode .hwSeedError) :: .thread :: rest →
      steps 3 s = .next { s with
        cr := s.cr &&& 0x20, sr := s.sr ||| 0x40, queue := rest,
        out := s.out ++ [{ mnemonic := .trngCancel, result := .ok }] })

/-- TRNG_SET_CLIENT fills the slot, replacing any client, and changes nothing else; the word with operand 0 is refused at
decode (43_trng_driver.md R176). -/
def Obligations.SetClientFillsTheSlot : Prop :=
  (∀ (c : Nat) (s : State), 1 ≤ c → c ≤ 255 → exec (.trngSetClient c) s = .next { s with client := some c }) ∧
  decode 0x220000000000 = .error .operandRange

/-- The clock passthroughs act on the RNG line as the CLK_* operations do, and touch no TRNG register
(43_trng_driver.md R178, R179, R180; 30_encoding.md R95). -/
def Obligations.ClockPassthroughsActOnTheRngLine : Prop :=
  ∀ s : State,
    exec .trngIsEnabledClock s = .next { s with
      out := s.out ++ [{ mnemonic := .trngIsEnabledClock, result := .bool (lineOn s.backend (.ahb2 .rng)) }] } ∧
    exec .trngEnableClock s = exec (.clkEnable (.ahb2 .rng)) s ∧
    exec .trngDisableClock s = exec (.clkDisable (.ahb2 .rng)) s ∧
    ∃ b c : Backend, exec .trngEnableClock s = .next { s with backend := b } ∧ lineOn b (.ahb2 .rng) = true ∧
      exec .trngDisableClock s = .next { s with backend := c } ∧ lineOn c (.ahb2 .rng) = false

/-- The driver's state transitions, with the RNG clock enabled (43_trng_driver.md R172). -/
def Obligations.DriverStateTransitions : Prop :=
  ∀ s : State, lineOn s.backend (.ahb2 .rng) = true →
    (∃ t, exec .trngGet s = .next t ∧ driverState t = .armed) ∧
    (∃ t, exec .trngCancel s = .next t ∧ driverState (threadStep t) = .disabled) ∧
    (s.phase = .clientActive → ∃ t, exec (.clientReturn .done) s = .next t ∧ driverState t = .disabled) ∧
    driverState (handlerStep .h6 (handlerStep .h5 s)) =
      (match driverState s with
       | .disabled => .genOnly
       | .armed => .armed
       | .genOnly => .genOnly
       | .irqOnly => .armed)

/-! ## Interrupt handler -/

/-- IRQ_ENTER enters the handler at H1 from phase Idle, whatever the registers hold, and saves nothing; in any other phase
it is refused with X_REENTRY (44_trng_interrupt.md R190). -/
def Obligations.IrqEnterEntersTheHandler : Prop :=
  ∀ s : State,
    (s.phase = .idle → exec .irqEnter s = .next { s with phase := .running .h1 }) ∧
    (s.phase ≠ .idle → exec .irqEnter s = .next { s with refused := some (s.refused.getD .reentry) })

/-- Every micro-step of the handler, with the RNG clock enabled (H8 and H11 need none), as a whole state: what it writes,
where it goes, and that nothing else changes (44_trng_interrupt.md R191 to R200). That H8 takes the hook's effect from the
list `reconfigEffects` is the model's choice, assumption log 12, and so is the counter `draws` of H4, log 2. -/
def Obligations.HandlerMicroSteps : Prop :=
  ∀ s : State,
    (lineOn s.backend (.ahb2 .rng) = true →
      handlerStep .h1 s = { s with phase := .running (if seisSet s then .h2 else .h7) } ∧
      handlerStep .h2 s = { s with hsr := s.sr &&& 0x67, phase := .running .h3 } ∧
      handlerStep .h3 s = { s with sr := s.sr &&& ((s.hsr &&& 0x20) ||| 0xFFFFFF9F), phase := .running .h4 } ∧
      handlerStep .h4 s = { s with
        sr := s.sr &&& 0xFFFFFFFE, draws := if s.drLoaded then s.draws else s.draws + 1, phase := .running .h5 } ∧
      handlerStep .h5 s = { s with cr := s.cr &&& 0x28, phase := .running .h6 } ∧
      handlerStep .h6 s = { s with cr := (s.cr &&& 0x28) ||| 0x04, phase := .idle } ∧
      handlerStep .h7 s = { s with phase := .running (if ceisSet s then .h8 else .h11) } ∧
      handlerStep .h9 s = { s with hsr := s.sr &&& 0x67, phase := .running .h10 } ∧
      handlerStep .h10 s = { s with sr := s.sr &&& ((s.hsr &&& 0x40) ||| 0xFFFFFF9F), phase := .idle }) ∧
    handlerStep .h8 s = (match s.reconfigEffects with
      | [] => { s with ev := s.ev ++ [.rngReconfigure], phase := .running .h9 }
      | b :: rest =>
        { s with ev := s.ev ++ [.rngReconfigure], backend := b, reconfigEffects := rest, phase := .running .h9 }) ∧
    handlerStep .h11 s = (match s.client with
      | none => { s with phase := .idle }
      | some c => { s with seq := .fresh, ev := s.ev ++ [.clientInvoked c], phase := .clientActive })

/-- The seed-error branch: six micro-steps clear SEIS and DRDY, keep CEIS, turn the generator off and on, keep IE and CED,
and return; no client is invoked and nothing is emitted (44_trng_interrupt.md R191 to R196). -/
def Obligations.SeedErrorBranch : Prop :=
  ∀ s : State, s.faults = [] → s.queue = [] → s.cancelStep2 = false → s.phase = .running .h1 →
    lineOn s.backend (.ahb2 .rng) = true → seisSet s = true →
    steps 6 s = .next { s with
      sr := s.sr &&& 0xFFFFFFBE, cr := (s.cr &&& 0x28) ||| 0x04, hsr := s.sr &&& 0x67, phase := .idle,
      draws := if s.drLoaded then s.draws else s.draws + 1 }

/-- The clock-error branch: five micro-steps log RngReconfigure once, apply the hook's effect, clear CEIS and return; CR, DR
and DRDY are left and no client is invoked. The premise on `b` and `rest` says which effect is next: none listed is no
change (44_trng_interrupt.md R197 to R199; assumption log 12). -/
def Obligations.ClockErrorBranch : Prop :=
  ∀ (s : State) (b : Backend) (rest : List Backend), s.faults = [] → s.queue = [] → s.cancelStep2 = false →
    s.phase = .running .h1 → lineOn s.backend (.ahb2 .rng) = true → seisSet s = false → ceisSet s = true →
    (s.reconfigEffects = b :: rest ∨ (s.reconfigEffects = [] ∧ b = s.backend ∧ rest = [])) →
    lineOn b (.ahb2 .rng) = true →
    steps 5 s = .next { s with
      sr := s.sr &&& 0xFFFFFF9F, hsr := s.sr &&& 0x67, ev := s.ev ++ [.rngReconfigure], backend := b,
      reconfigEffects := rest, phase := .idle }

/-- The data branch: three micro-steps invoke the registered client with a fresh sequence, whatever DRDY and CR hold, or
return with no change if there is none (44_trng_interrupt.md R200). -/
def Obligations.DataBranch : Prop :=
  ∀ s : State, s.faults = [] → s.queue = [] → s.cancelStep2 = false → s.phase = .running .h1 →
    lineOn s.backend (.ahb2 .rng) = true → seisSet s = false → ceisSet s = false →
    steps 3 s = .next (match s.client with
      | none => { s with phase := .idle }
      | some c => { s with seq := .fresh, ev := s.ev ++ [.clientInvoked c], phase := .clientActive })

/-- In phase Running the handler reaches its return or ClientActive within six micro-steps, unless a fault is raised
(44_trng_interrupt.md R210). -/
def Obligations.HandlerEndsWithinSixSteps : Prop :=
  ∀ s : State, s.faults = [] → s.queue = [] → s.cancelStep2 = false → inHandler s = true →
    ∃ k ≤ 6, ∃ t, steps k s = .next t ∧ (inHandler t = false ∨ t.faults ≠ [])

/-- The micro-steps before H11 never emit, never log ClientInvoked and never read the client; no micro-step touches DR, the
client, the refusal mark, the schedule or TRNG_CANCEL's second write (44_trng_interrupt.md R201 item 3). -/
def Obligations.ErrorBranchesAreSilent : Prop :=
  ∀ (label : HandlerStep) (s : State),
    (label ≠ .h11 → (∀ c : Option Nat, handlerStep label { s with client := c } = { handlerStep label s with client := c }) ∧
      (∀ e ∈ (handlerStep label s).ev, e ∈ s.ev ∨ e = .rngReconfigure)) ∧
    (handlerStep label s).out = s.out ∧ (handlerStep label s).dr = s.dr ∧
    (handlerStep label s).drLoaded = s.drLoaded ∧ (handlerStep label s).client = s.client ∧
    (handlerStep label s).refused = s.refused ∧ (handlerStep label s).queue = s.queue ∧
    (handlerStep label s).cancelStep2 = s.cancelStep2

/-- The lost flags: a clock error between H2 and H3, or a seed error between H9 and H10, is cleared by the write, where the
flag was 0 at the read (20_memory.md R66, 70_reset_and_hazards.md R297). -/
def Obligations.AnErrorBetweenReadAndWriteIsLost : Prop :=
  ∀ (s : State) (rest : List Slot), s.faults = [] → s.cancelStep2 = false → lineOn s.backend (.ahb2 .rng) = true →
    (s.phase = .running .h2 → ceisSet s = false →
      s.queue = .thread :: .atOnce (encode .hwClockError) :: .thread :: rest →
      ∃ t, steps 3 s = .next t ∧ t.phase = .running .h4 ∧ ceisSet t = false ∧ seisSet t = false) ∧
    (s.phase = .running .h9 → seisSet s = false →
      s.queue = .thread :: .atOnce (encode .hwSeedError) :: .thread :: rest →
      ∃ t, steps 3 s = .next t ∧ t.phase = .idle ∧ seisSet t = false ∧ ceisSet t = false)

/-- SEQ_NEXT in ClientActive: an exhausted sequence yields None with no register access; a fresh one delivers the word and
clears DRDY if it is set, else yields None and is exhausted; with the RNG clock
gated a fresh one faults; in any other phase SEQ_NEXT is refused with X_PHASE (44_trng_interrupt.md R203). -/
def Obligations.SeqNextPullsAWord : Prop :=
  ∀ s : State,
    (s.phase = .clientActive → s.seq = .exhausted →
      exec .seqNext s = .next { s with out := s.out ++ [{ mnemonic := .seqNext, result := .word none }] }) ∧
    (s.phase = .clientActive → s.seq = .fresh → lineOn s.backend (.ahb2 .rng) = true → drdySet s = false →
      exec .seqNext s = .next { s with
        seq := .exhausted, out := s.out ++ [{ mnemonic := .seqNext, result := .word none }] }) ∧
    (s.phase = .clientActive → s.seq = .fresh → lineOn s.backend (.ahb2 .rng) = true → drdySet s = true →
      exec .seqNext s = .next { s with
        sr := s.sr &&& 0xFFFFFFFE, draws := if s.drLoaded then s.draws else s.draws + 1,
        out := s.out ++
          [{ mnemonic := .seqNext, result := .word (some (if s.drLoaded then s.dr else Config.draw s.draws)) }] }) ∧
    (s.phase = .clientActive → s.seq = .fresh → lineOn s.backend (.ahb2 .rng) = false → s.faults = [] →
      exec .seqNext s = .next { s with faults := [.rngClockGated .sr] }) ∧
    (s.phase ≠ .clientActive → exec .seqNext s = .next { s with refused := some (s.refused.getD .wrongPhase) })

/-- In every state that meets the invariant, the word SEQ_NEXT delivers is DR, never a free value (44_trng_interrupt.md
R203, 10_state.md R31). -/
def Obligations.DeliveredWordsComeFromDr : Prop :=
  ∀ s t : State, StateInv s → exec .seqNext s = .next t → ∀ w,
    t.out = s.out ++ [{ mnemonic := .seqNext, result := .word (some w) }] →
    w = s.dr ∧ drdySet s = true ∧ drdySet t = false ∧ t.draws = s.draws

/-- An exhausted sequence stays exhausted: only H11, at the next invocation, makes a fresh one (10_state.md R39,
44_trng_interrupt.md R202). -/
def Obligations.ExhaustedSequencesStayExhausted : Prop :=
  (∀ (i : Instr) (s t : State), exec i s = .next t → s.seq = .exhausted → t.seq = .exhausted) ∧
  (∀ s : State, s.cancelStep2 = true ∨ s.phase ≠ .running .h11 → (threadStep s).seq = s.seq)

/-- CLIENT_RETURN in ClientActive logs the answer and returns: Continue leaves CR, Done clears IE and RNGEN and keeps CED,
or faults with the RNG clock gated; in any other phase it is refused with X_PHASE (44_trng_interrupt.md R204, R206). -/
def Obligations.ClientReturnEndsTheInvocation : Prop :=
  ∀ s : State,
    (s.phase = .clientActive →
      exec (.clientReturn .more) s = .next { s with ev := s.ev ++ [.clientReturned .more], phase := .idle }) ∧
    (s.phase = .clientActive → lineOn s.backend (.ahb2 .rng) = true →
      exec (.clientReturn .done) s = .next { s with
        cr := s.cr &&& 0x20, ev := s.ev ++ [.clientReturned .done], phase := .idle }) ∧
    (s.phase = .clientActive → lineOn s.backend (.ahb2 .rng) = false → s.faults = [] →
      exec (.clientReturn .done) s = .next { s with faults := [.rngClockGated .cr] }) ∧
    (s.phase ≠ .clientActive → ∀ r,
      exec (.clientReturn r) s = .next { s with refused := some (s.refused.getD .wrongPhase) })

/-- Two states that differ at most in the current bits SECS and CECS, in SR and in the handler's latch of SR. -/
def Sys2Proof.Safety.SameButCurrentBits (s t : State) : Prop :=
  { s with sr := s.sr &&& 0xFFFFFFF9, hsr := s.hsr &&& 0xFFFFFFF9 } =
    { t with sr := t.sr &&& 0xFFFFFFF9, hsr := t.hsr &&& 0xFFFFFFF9 }

/-- SECS and CECS decide nothing: from two states that differ at most in them, a step ends the same way, in states that
differ at most in them (10_state.md R30). -/
def Obligations.CurrentBitsDecideNothing : Prop :=
  ∀ s t : State, SameButCurrentBits s t →
    (∀ s', step s = .next s' → ∃ t', step t = .next t' ∧ SameButCurrentBits s' t') ∧
    (∀ f, step s = .fault f → step t = .fault f)

/-! ## Hardware and environment events -/

/-- The hardware events write their own flag (HW_DATA_READY also DR) and nothing else, and never fault
(45_hw_and_env_events.md R230 to R234). -/
def Obligations.HardwareEventsWriteTheirFlag : Prop :=
  ∀ s : State,
    (∀ w : Word, exec (.hwDataReady w) s = .next { s with dr := w, drLoaded := true, sr := s.sr ||| 0x01 }) ∧
    exec .hwSeedError s = .next { s with sr := s.sr ||| 0x40 } ∧
    exec .hwClockError s = .next { s with sr := s.sr ||| 0x20 } ∧
    (∀ b : Bool, exec (.hwSeedCurrent b) s =
      .next { s with sr := if b then s.sr ||| 0x04 else s.sr &&& 0xFFFFFFFB }) ∧
    (∀ b : Bool, exec (.hwClockCurrent b) s =
      .next { s with sr := if b then s.sr ||| 0x02 else s.sr &&& 0xFFFFFFFD })

/-- The environment events write their own field of the clock configuration and nothing else; a prescaler that is not legal is
refused at decode (45_hw_and_env_events.md R236 to R239). -/
def Obligations.EnvironmentEventsWriteTheirField : Prop :=
  ∀ s : State,
    (∀ f : Word, exec (.envSetSysfreq f) s = .next { s with backend := { s.backend with sysFreq := f } }) ∧
    (∀ p : Prescaler, exec (.envSetApb1Presc p) s = .next { s with backend := { s.backend with apb1Presc := p } }) ∧
    (∀ p : Prescaler, exec (.envSetApb2Presc p) s = .next { s with backend := { s.backend with apb2Presc := p } }) ∧
    (∀ b : Bool, exec (.envSetTimpre b) s = .next { s with backend := { s.backend with timpre := b } }) ∧
    (∀ p : Byte, p.toNat ∉ [1, 2, 4, 8, 16] →
      decode (packCommand 0x91 p 0) = .error .operandRange ∧ decode (packCommand 0x92 p 0) = .error .operandRange)
end

