-- ==== Sys2Proof/Laws/Bits.lean ====
section
/-! SUPPORT. Single bits of register words, and the bits that register writes leave. -/

namespace Sys2Proof.Machine

/-- A single-bit mask has its one bit. -/
theorem getLsbD_bitMask (i j : Nat) : (bitMask i).getLsbD j = (decide (j = i) && decide (i < 32)) := by
  unfold bitMask
  rw [BitVec.getLsbD_shiftLeft, BitVec.getLsbD_one]
  by_cases h : j = i
  · subst h; simp
  · rcases Nat.lt_or_ge j i with h' | h'
    · simp [h, h']
    · have : j - i ≠ 0 := by omega
      simp [h, this]

/-- A field write changes its own bit and no other. -/
theorem getLsbD_putBit (v : Word) (i : Nat) (b : Bool) (j : Nat) :
    (putBit v i b).getLsbD j = if j = i ∧ i < 32 then b else v.getLsbD j := by
  by_cases hj : j < 32
  · unfold putBit
    cases b <;> by_cases h : j = i <;> simp_all [getLsbD_bitMask, -BitVec.getLsbD_eq_getElem]
  · have h₁ : (putBit v i b).getLsbD j = false := BitVec.getLsbD_of_ge _ _ (by omega)
    have h₂ : v.getLsbD j = false := BitVec.getLsbD_of_ge _ _ (by omega)
    rw [h₁, h₂, if_neg (by omega)]

/-- The bit that was written. -/
theorem getLsbD_putBit_self (v : Word) (i : Nat) (b : Bool) (h : i < 32) : (putBit v i b).getLsbD i = b := by
  rw [getLsbD_putBit, if_pos ⟨rfl, h⟩]

/-- Any other bit. -/
theorem getLsbD_putBit_ne (v : Word) (i : Nat) (b : Bool) (j : Nat) (h : j ≠ i) :
    (putBit v i b).getLsbD j = v.getLsbD j := by
  simp [getLsbD_putBit, h]

/-- Two words are equal if their 32 bits are: the way to prove an equation between register words. -/
theorem word_ext (v w : Word) (h : ∀ i, i < 32 → v.getLsbD i = w.getLsbD i) : v = w :=
  BitVec.eq_of_getLsbD_eq fun i hi => h i hi

/-- The bits of CR's mask (30_encoding.md R80). -/
theorem getLsbD_crMask (i : Nat) : crMask.getLsbD i = (decide (i = 5) || decide (i = 3) || decide (i = 2)) := by
  by_cases h : i < 32
  · unfold crMask; interval_cases i <;> decide
  · rw [BitVec.getLsbD_of_ge _ _ (by omega)]
    have h5 : i ≠ 5 := by omega
    have h3 : i ≠ 3 := by omega
    have h2 : i ≠ 2 := by omega
    simp [h5, h3, h2]

/-- The bits of SR's mask (30_encoding.md R81). -/
theorem getLsbD_srMask (i : Nat) :
    srMask.getLsbD i = (decide (i = 6) || decide (i = 5) || decide (i = 2) || decide (i = 1) || decide (i = 0)) := by
  by_cases h : i < 32
  · unfold srMask; interval_cases i <;> decide
  · rw [BitVec.getLsbD_of_ge _ _ (by omega)]
    have h6 : i ≠ 6 := by omega
    have h5 : i ≠ 5 := by omega
    have h2 : i ≠ 2 := by omega
    have h1 : i ≠ 1 := by omega
    have h0 : i ≠ 0 := by omega
    simp [h6, h5, h2, h1, h0]

/-- The reserved bits of a word under a mask are 0 exactly if masking leaves it alone. -/
theorem reserved_zero_iff (v mask : Word) : v &&& ~~~mask = 0 ↔ v &&& mask = v := by
  constructor
  · intro h
    apply word_ext; intro i hi
    have := congrArg (fun w : Word => w.getLsbD i) h
    simp [hi] at this
    cases hv : v.getLsbD i <;> simp_all
  · intro h
    apply word_ext; intro i hi
    have := congrArg (fun w : Word => w.getLsbD i) h
    simp at this
    cases hv : v.getLsbD i <;> simp_all

/-- The bits a CR write leaves (20_memory.md R63). -/
theorem getLsbD_crAfterWrite (v : Word) (i : Nat) :
    (crAfterWrite v).getLsbD i = (v.getLsbD i && (decide (i = 5) || decide (i = 3) || decide (i = 2))) := by
  simp [crAfterWrite, getLsbD_crMask]

/-- The bits an SR write leaves: SEIS and CEIS are kept where the written word carries 1 (20_memory.md R63). -/
theorem getLsbD_srAfterWrite (sr v : Word) (i : Nat) :
    (srAfterWrite sr v).getLsbD i = (sr.getLsbD i && (v.getLsbD i || !(decide (i = 6) || decide (i = 5)))) := by
  unfold srAfterWrite seisBit ceisBit
  rcases Decidable.em (i = 6) with h6 | h6
  · subst h6
    cases h : v.getLsbD 6 <;> cases h' : v.getLsbD 5 <;> simp [getLsbD_putBit, -BitVec.getLsbD_eq_getElem]
  · rcases Decidable.em (i = 5) with h5 | h5
    · subst h5
      cases h : v.getLsbD 6 <;> cases h' : v.getLsbD 5 <;> simp [getLsbD_putBit, -BitVec.getLsbD_eq_getElem]
    · cases h : v.getLsbD 6 <;> cases h' : v.getLsbD 5 <;> simp [getLsbD_putBit, h6, h5, -BitVec.getLsbD_eq_getElem]

/-- Writing a defined bit keeps the reserved bits 0. -/
theorem putBit_reserved (v mask : Word) (k : Nat) (b : Bool) (hk : mask.getLsbD k = true) (h : v &&& ~~~mask = 0) :
    putBit v k b &&& ~~~mask = 0 := by
  apply word_ext; intro i hi
  have := congrArg (fun w : Word => w.getLsbD i) h
  simp only [BitVec.getLsbD_and, getLsbD_putBit, BitVec.getLsbD_not] at *
  by_cases e : i = k
  · subst e; simp [hk]
  · simpa [e] using this

/-- Masking leaves the reserved bits 0. -/
theorem and_mask_reserved (v mask : Word) : v &&& mask &&& ~~~mask = 0 := by
  apply word_ext; intro i hi; cases h : mask.getLsbD i <;> simp_all [-BitVec.getLsbD_eq_getElem]

/-- An SR write keeps the reserved bits 0 (20_memory.md R63). -/
theorem srAfterWrite_reserved (sr v : Word) (h : sr &&& ~~~srMask = 0) : srAfterWrite sr v &&& ~~~srMask = 0 := by
  apply word_ext; intro i hi
  have := congrArg (fun w : Word => w.getLsbD i) h
  simp only [BitVec.getLsbD_and, getLsbD_srAfterWrite, BitVec.getLsbD_not] at *
  cases h1 : sr.getLsbD i <;> simp_all

/-- Each field write as an operation on the whole word (30_encoding.md R80, R81). -/
theorem putBit_drdy_false (v : Word) : putBit v drdyBit false = v &&& 0xFFFFFFFE := rfl
theorem putBit_drdy_true (v : Word) : putBit v drdyBit true = v ||| 0x01 := rfl
theorem putBit_seis_false (v : Word) : putBit v seisBit false = v &&& 0xFFFFFFBF := rfl
theorem putBit_seis_true (v : Word) : putBit v seisBit true = v ||| 0x40 := rfl
theorem putBit_ceis_false (v : Word) : putBit v ceisBit false = v &&& 0xFFFFFFDF := rfl
theorem putBit_ceis_true (v : Word) : putBit v ceisBit true = v ||| 0x20 := rfl
theorem putBit_ie_false (v : Word) : putBit v ieBit false = v &&& 0xFFFFFFF7 := rfl
theorem putBit_ie_true (v : Word) : putBit v ieBit true = v ||| 0x08 := rfl
theorem putBit_rngen_false (v : Word) : putBit v rngenBit false = v &&& 0xFFFFFFFB := rfl
theorem putBit_rngen_true (v : Word) : putBit v rngenBit true = v ||| 0x04 := rfl

/-- An SR write as an operation on the whole words: SEIS and CEIS survive only where both words carry 1. -/
theorem srAfterWrite_eq (sr v : Word) : srAfterWrite sr v = sr &&& (v ||| 0xFFFFFF9F) := by
  apply word_ext; intro i hi
  rw [getLsbD_srAfterWrite, BitVec.getLsbD_and, BitVec.getLsbD_or]
  have hm : (0xFFFFFF9F : Word).getLsbD i = !(decide (i = 6) || decide (i = 5)) := by
    interval_cases i <;> rfl
  rw [← hm]

/-- The CR writes of the block on the whole word: TRNG_GET (43_trng_driver.md R170). -/
theorem crAfterWrite_get (v : Word) :
    crAfterWrite (putBit (putBit (v &&& crMask) ieBit true) rngenBit true) = (v &&& 0x20) ||| 0x0C := by
  apply word_ext; intro i hi
  rw [getLsbD_crAfterWrite]
  simp only [getLsbD_putBit, BitVec.getLsbD_or, BitVec.getLsbD_and, getLsbD_crMask, ieBit, rngenBit]
  interval_cases i <;> simp

/-- TRNG_CANCEL's first write, and H5 (43_trng_driver.md R173, 44_trng_interrupt.md R195). -/
theorem crAfterWrite_rngen_off (v : Word) : crAfterWrite (putBit (v &&& crMask) rngenBit false) = v &&& 0x28 := by
  apply word_ext; intro i hi
  rw [getLsbD_crAfterWrite]
  simp only [getLsbD_putBit, BitVec.getLsbD_and, getLsbD_crMask, rngenBit]
  interval_cases i <;> simp

/-- H6 (44_trng_interrupt.md R196). -/
theorem crAfterWrite_rngen_on (v : Word) :
    crAfterWrite (putBit (v &&& crMask) rngenBit true) = (v &&& 0x28) ||| 0x04 := by
  apply word_ext; intro i hi
  rw [getLsbD_crAfterWrite]
  simp only [getLsbD_putBit, BitVec.getLsbD_or, BitVec.getLsbD_and, getLsbD_crMask, rngenBit]
  interval_cases i <;> simp

/-- TRNG_CANCEL's second write (43_trng_driver.md R173). -/
theorem crAfterWrite_ie_off (v : Word) : crAfterWrite (putBit (v &&& crMask) ieBit false) = v &&& 0x24 := by
  apply word_ext; intro i hi
  rw [getLsbD_crAfterWrite]
  simp only [getLsbD_putBit, BitVec.getLsbD_and, getLsbD_crMask, ieBit]
  interval_cases i <;> simp

/-- CLIENT_RETURN Done (44_trng_interrupt.md R206). -/
theorem crAfterWrite_done (v : Word) :
    crAfterWrite (putBit (putBit (v &&& crMask) ieBit false) rngenBit false) = v &&& 0x20 := by
  apply word_ext; intro i hi
  rw [getLsbD_crAfterWrite]
  simp only [getLsbD_putBit, BitVec.getLsbD_and, getLsbD_crMask, ieBit, rngenBit]
  interval_cases i <;> simp

end Sys2Proof.Machine
end

