-- ==== Sys2Proof/Laws/Decode.lean ====
section
/-! SUPPORT. The fields of a packed command word, and the tables of codes and their inverses. -/

namespace Sys2Proof

/-- The bits of a packed word, field by field (30_encoding.md R87). -/
theorem getLsbD_packCommand (o p : Byte) (d : Word) (i : Nat) :
    (packCommand o p d).getLsbD i =
      if i < 32 then d.getLsbD i else if i < 40 then p.getLsbD (i - 32) else o.getLsbD (i - 40) := by
  unfold packCommand
  change (o ++ p ++ d : BitVec (8 + 8 + 32)).getLsbD i = _
  rw [BitVec.getLsbD_append, BitVec.getLsbD_append]
  by_cases h : i < 32
  · rw [if_pos h, if_pos h]
  · rw [if_neg h, if_neg h]
    by_cases h' : i < 40
    · rw [if_pos h', if_pos (by omega)]
    · rw [if_neg h', if_neg (by omega), show i - 32 - 8 = i - 40 by omega]

/-- The opcode of a packed word. -/
@[simp] theorem opcodeField_packCommand (o p : Byte) (d : Word) : opcodeField (packCommand o p d) = o := by
  apply BitVec.eq_of_getLsbD_eq; intro i hi
  rw [opcodeField, BitVec.getLsbD_extractLsb', getLsbD_packCommand, if_neg (by omega), if_neg (by omega)]
  simp [hi]

/-- The operand of a packed word. -/
@[simp] theorem operandField_packCommand (o p : Byte) (d : Word) : operandField (packCommand o p d) = p := by
  apply BitVec.eq_of_getLsbD_eq; intro i hi
  rw [operandField, BitVec.getLsbD_extractLsb', getLsbD_packCommand, if_neg (by omega), if_pos (by omega)]
  simp [hi]

/-- The payload of a packed word. -/
@[simp] theorem payloadField_packCommand (o p : Byte) (d : Word) : payloadField (packCommand o p d) = d := by
  apply BitVec.eq_of_getLsbD_eq; intro i hi
  rw [payloadField, BitVec.getLsbD_extractLsb', getLsbD_packCommand, if_pos (by omega)]
  simp [hi]

/-- A word is packed from its three fields (30_encoding.md R87). -/
theorem packCommand_fields (w : Command) : packCommand (opcodeField w) (operandField w) (payloadField w) = w := by
  apply BitVec.eq_of_getLsbD_eq; intro i hi
  rw [getLsbD_packCommand, opcodeField, operandField, payloadField, BitVec.getLsbD_extractLsb',
    BitVec.getLsbD_extractLsb', BitVec.getLsbD_extractLsb']
  by_cases h : i < 32
  · rw [if_pos h]; simp [h]
  · rw [if_neg h]
    by_cases h' : i < 40
    · rw [if_pos h', show 32 + (i - 32) = i by omega]; simp [show i - 32 < 8 by omega]
    · rw [if_neg h', show 40 + (i - 40) = i by omega]; simp [show i - 40 < 8 by omega]

/-- Every code is read back (30_encoding.md R84). -/
@[simp] theorem clockIdOfCode_code (id : ClockId) : clockIdOfCode id.code = some id := by
  rcases id with p | p | p | p | p | _ | _ <;> first | rfl | (cases p <;> rfl)

/-- Every identity read has the code it was read from (30_encoding.md R84, R85). -/
theorem code_of_clockIdOfCode (code : Byte) (id : ClockId) (h : clockIdOfCode code = some id) : id.code = code := by
  apply BitVec.eq_of_toNat_eq
  unfold clockIdOfCode at h
  split at h <;> first | (cases h; simp_all [ClockId.code]) | cases h

/-- Every divisor is read back (30_encoding.md R88). -/
@[simp] theorem prescalerOfDivisor_divisor (p : Prescaler) : prescalerOfDivisor p.divisor = some p := by
  cases p <;> rfl

/-- Every prescaler read has the divisor it was read from (30_encoding.md R88). -/
theorem divisor_of_prescalerOfDivisor (n : Nat) (p : Prescaler) (h : prescalerOfDivisor n = some p) : p.divisor = n := by
  unfold prescalerOfDivisor at h
  split at h <;> cases h <;> rfl

/-- A divisor fits in the operand byte. -/
theorem divisor_lt (p : Prescaler) : p.divisor < 256 := by cases p <;> decide

/-- A divisor is never zero (41_clock_handle.md R122 item 3). -/
theorem divisor_pos (p : Prescaler) : 0 < p.divisor := by cases p <;> decide

/-- Every selector is read back (30_encoding.md R90). -/
@[simp] theorem boolOfSelector_selectorOfBool (b : Bool) : boolOfSelector (selectorOfBool b).toNat = some b := by
  cases b <;> rfl

/-- Every selector read has the byte it was read from (30_encoding.md R90). -/
theorem selectorOfBool_of_boolOfSelector (sel : Byte) (b : Bool) (h : boolOfSelector sel.toNat = some b) :
    selectorOfBool b = sel := by
  apply BitVec.eq_of_toNat_eq
  unfold boolOfSelector at h
  split at h <;> first | (cases h; simp_all [selectorOfBool]) | cases h

@[simp] theorem answerOfBool_boolOfAnswer (r : Answer) : answerOfBool (boolOfAnswer r) = r := by cases r <;> rfl

@[simp] theorem boolOfAnswer_answerOfBool (b : Bool) : boolOfAnswer (answerOfBool b) = b := by cases b <;> rfl

/-- A number below 256 is kept by the operand byte. -/
theorem toNat_operand (n : Nat) (h : n < 256) : (BitVec.ofNat 8 n).toNat = n := by
  simp [BitVec.toNat_ofNat, Nat.mod_eq_of_lt h]

end Sys2Proof
end

