-- ==== Sys2Proof/Laws/Lines.lean ====
section
/-! SUPPORT. The clock lines of the backend: a line written reads back, every other line is left alone. -/

namespace Sys2Proof.Machine

/-- An identity has an enable bit exactly if it has a handle (42_registries.md R155). -/
theorem lineIndex_isSome (id : ClockId) : (lineIndex id).isSome = id.hasHandle := by
  rcases id with p | p | p | p | p | _ | _ <;> first | rfl | (cases p <;> rfl)

/-- The enable bits stand in the order of `handledIds`. -/
theorem handledIds_lineIndex (id : ClockId) (k : Fin 24) (h : lineIndex id = some k) : handledIds[k]? = some id := by
  rcases id with p | p | p | p | p | _ | _ <;>
    first | (cases p <;> cases h <;> rfl) | (cases h; rfl)

/-- Two identities never share an enable bit. -/
theorem lineIndex_injective (a b : ClockId) (k : Fin 24) (ha : lineIndex a = some k) (hb : lineIndex b = some k) :
    a = b := by
  have := handledIds_lineIndex a k ha
  rw [handledIds_lineIndex b k hb] at this
  exact (Option.some.inj this).symm

/-- At launch every line is as RESET_CLK_ENABLED has it (10_state.md R48). -/
theorem lineOn_launch (id : ClockId) (h : id.hasHandle = true) :
    lineOn Backend.launch id = Config.resetClkEnabled id := by
  rcases id with p | p | p | p | p | _ | _ <;> first | rfl | (cases p <;> first | rfl | cases h)

/-- A line with a handle reads back what was written. -/
theorem lineOn_setLine_self (b : Backend) (id : ClockId) (v : Bool) (h : id.hasHandle = true) :
    lineOn (setLine b id v) id = v := by
  rw [← lineIndex_isSome] at h
  obtain ⟨k, hk⟩ := Option.isSome_iff_exists.mp h
  simp [lineOn, setLine, hk]

/-- Writing one line leaves every other line alone (41_clock_handle.md R112 item 4). -/
theorem lineOn_setLine_ne (b : Backend) (id other : ClockId) (v : Bool) (h : other ≠ id) :
    lineOn (setLine b id v) other = lineOn b other := by
  unfold lineOn setLine
  cases hi : lineIndex id with
  | none => rfl
  | some k =>
    cases ho : lineIndex other with
    | none => rfl
    | some j =>
      have : (k : Nat) ≠ j := fun e => h (lineIndex_injective other id k (by rw [ho, Fin.ext e]) hi)
      simp [this]

/-- Writing a line changes none of the backend's other fields. -/
@[simp] theorem setLine_rtcSrc (b : Backend) (id : ClockId) (v : Bool) : (setLine b id v).rtcSrc = b.rtcSrc := by
  unfold setLine; split <;> rfl
@[simp] theorem setLine_sysFreq (b : Backend) (id : ClockId) (v : Bool) : (setLine b id v).sysFreq = b.sysFreq := by
  unfold setLine; split <;> rfl
@[simp] theorem setLine_apb1Presc (b : Backend) (id : ClockId) (v : Bool) :
    (setLine b id v).apb1Presc = b.apb1Presc := by
  unfold setLine; split <;> rfl
@[simp] theorem setLine_apb2Presc (b : Backend) (id : ClockId) (v : Bool) :
    (setLine b id v).apb2Presc = b.apb2Presc := by
  unfold setLine; split <;> rfl
@[simp] theorem setLine_timpre (b : Backend) (id : ClockId) (v : Bool) : (setLine b id v).timpre = b.timpre := by
  unfold setLine; split <;> rfl

/-- A line is read from the enable bits alone. -/
theorem lineOn_congr (b c : Backend) (id : ClockId) (h : b.clkEn = c.clkEn) : lineOn b id = lineOn c id := by
  unfold lineOn; rw [h]

end Sys2Proof.Machine
end

