-- ==== Sys2Proof/Laws/State.lean ====
section
/-! SUPPORT. What each update of the state leaves in each field: one lemma per field per shared operation. -/

namespace Sys2Proof.Machine

@[simp] theorem emit_cr (m : Emitter) (r : Result) (s : State) : (emit m r s).cr = s.cr := rfl
@[simp] theorem emit_sr (m : Emitter) (r : Result) (s : State) : (emit m r s).sr = s.sr := rfl
@[simp] theorem emit_dr (m : Emitter) (r : Result) (s : State) : (emit m r s).dr = s.dr := rfl
@[simp] theorem emit_drLoaded (m : Emitter) (r : Result) (s : State) : (emit m r s).drLoaded = s.drLoaded := rfl
@[simp] theorem emit_backend (m : Emitter) (r : Result) (s : State) : (emit m r s).backend = s.backend := rfl
@[simp] theorem emit_client (m : Emitter) (r : Result) (s : State) : (emit m r s).client = s.client := rfl
@[simp] theorem emit_phase (m : Emitter) (r : Result) (s : State) : (emit m r s).phase = s.phase := rfl
@[simp] theorem emit_seq (m : Emitter) (r : Result) (s : State) : (emit m r s).seq = s.seq := rfl
@[simp] theorem emit_hsr (m : Emitter) (r : Result) (s : State) : (emit m r s).hsr = s.hsr := rfl
@[simp] theorem emit_out (m : Emitter) (r : Result) (s : State) : (emit m r s).out = s.out ++ [{ mnemonic := m, result := r }] := rfl
@[simp] theorem emit_ev (m : Emitter) (r : Result) (s : State) : (emit m r s).ev = s.ev := rfl
@[simp] theorem emit_faults (m : Emitter) (r : Result) (s : State) : (emit m r s).faults = s.faults := rfl
@[simp] theorem emit_refused (m : Emitter) (r : Result) (s : State) : (emit m r s).refused = s.refused := rfl
@[simp] theorem emit_cancelStep2 (m : Emitter) (r : Result) (s : State) : (emit m r s).cancelStep2 = s.cancelStep2 := rfl
@[simp] theorem emit_queue (m : Emitter) (r : Result) (s : State) : (emit m r s).queue = s.queue := rfl
@[simp] theorem emit_draws (m : Emitter) (r : Result) (s : State) : (emit m r s).draws = s.draws := rfl
@[simp] theorem emit_reconfigEffects (m : Emitter) (r : Result) (s : State) : (emit m r s).reconfigEffects = s.reconfigEffects := rfl

@[simp] theorem logEvent_cr (e : Event) (s : State) : (logEvent e s).cr = s.cr := rfl
@[simp] theorem logEvent_sr (e : Event) (s : State) : (logEvent e s).sr = s.sr := rfl
@[simp] theorem logEvent_dr (e : Event) (s : State) : (logEvent e s).dr = s.dr := rfl
@[simp] theorem logEvent_drLoaded (e : Event) (s : State) : (logEvent e s).drLoaded = s.drLoaded := rfl
@[simp] theorem logEvent_backend (e : Event) (s : State) : (logEvent e s).backend = s.backend := rfl
@[simp] theorem logEvent_client (e : Event) (s : State) : (logEvent e s).client = s.client := rfl
@[simp] theorem logEvent_phase (e : Event) (s : State) : (logEvent e s).phase = s.phase := rfl
@[simp] theorem logEvent_seq (e : Event) (s : State) : (logEvent e s).seq = s.seq := rfl
@[simp] theorem logEvent_hsr (e : Event) (s : State) : (logEvent e s).hsr = s.hsr := rfl
@[simp] theorem logEvent_out (e : Event) (s : State) : (logEvent e s).out = s.out := rfl
@[simp] theorem logEvent_ev (e : Event) (s : State) : (logEvent e s).ev = s.ev ++ [e] := rfl
@[simp] theorem logEvent_faults (e : Event) (s : State) : (logEvent e s).faults = s.faults := rfl
@[simp] theorem logEvent_refused (e : Event) (s : State) : (logEvent e s).refused = s.refused := rfl
@[simp] theorem logEvent_cancelStep2 (e : Event) (s : State) : (logEvent e s).cancelStep2 = s.cancelStep2 := rfl
@[simp] theorem logEvent_queue (e : Event) (s : State) : (logEvent e s).queue = s.queue := rfl
@[simp] theorem logEvent_draws (e : Event) (s : State) : (logEvent e s).draws = s.draws := rfl
@[simp] theorem logEvent_reconfigEffects (e : Event) (s : State) : (logEvent e s).reconfigEffects = s.reconfigEffects := rfl

@[simp] theorem raiseFault_cr (f : Fault) (s : State) : (raiseFault f s).cr = s.cr := rfl
@[simp] theorem raiseFault_sr (f : Fault) (s : State) : (raiseFault f s).sr = s.sr := rfl
@[simp] theorem raiseFault_dr (f : Fault) (s : State) : (raiseFault f s).dr = s.dr := rfl
@[simp] theorem raiseFault_drLoaded (f : Fault) (s : State) : (raiseFault f s).drLoaded = s.drLoaded := rfl
@[simp] theorem raiseFault_backend (f : Fault) (s : State) : (raiseFault f s).backend = s.backend := rfl
@[simp] theorem raiseFault_client (f : Fault) (s : State) : (raiseFault f s).client = s.client := rfl
@[simp] theorem raiseFault_phase (f : Fault) (s : State) : (raiseFault f s).phase = s.phase := rfl
@[simp] theorem raiseFault_seq (f : Fault) (s : State) : (raiseFault f s).seq = s.seq := rfl
@[simp] theorem raiseFault_hsr (f : Fault) (s : State) : (raiseFault f s).hsr = s.hsr := rfl
@[simp] theorem raiseFault_out (f : Fault) (s : State) : (raiseFault f s).out = s.out := rfl
@[simp] theorem raiseFault_ev (f : Fault) (s : State) : (raiseFault f s).ev = s.ev := rfl
@[simp] theorem raiseFault_faults (f : Fault) (s : State) : (raiseFault f s).faults = if f ∈ s.faults then s.faults else s.faults ++ [f] := rfl
@[simp] theorem raiseFault_refused (f : Fault) (s : State) : (raiseFault f s).refused = s.refused := rfl
@[simp] theorem raiseFault_cancelStep2 (f : Fault) (s : State) : (raiseFault f s).cancelStep2 = s.cancelStep2 := rfl
@[simp] theorem raiseFault_queue (f : Fault) (s : State) : (raiseFault f s).queue = s.queue := rfl
@[simp] theorem raiseFault_draws (f : Fault) (s : State) : (raiseFault f s).draws = s.draws := rfl
@[simp] theorem raiseFault_reconfigEffects (f : Fault) (s : State) : (raiseFault f s).reconfigEffects = s.reconfigEffects := rfl

@[simp] theorem refuse_cr (r : Reason) (s : State) : (refuse r s).cr = s.cr := rfl
@[simp] theorem refuse_sr (r : Reason) (s : State) : (refuse r s).sr = s.sr := rfl
@[simp] theorem refuse_dr (r : Reason) (s : State) : (refuse r s).dr = s.dr := rfl
@[simp] theorem refuse_drLoaded (r : Reason) (s : State) : (refuse r s).drLoaded = s.drLoaded := rfl
@[simp] theorem refuse_backend (r : Reason) (s : State) : (refuse r s).backend = s.backend := rfl
@[simp] theorem refuse_client (r : Reason) (s : State) : (refuse r s).client = s.client := rfl
@[simp] theorem refuse_phase (r : Reason) (s : State) : (refuse r s).phase = s.phase := rfl
@[simp] theorem refuse_seq (r : Reason) (s : State) : (refuse r s).seq = s.seq := rfl
@[simp] theorem refuse_hsr (r : Reason) (s : State) : (refuse r s).hsr = s.hsr := rfl
@[simp] theorem refuse_out (r : Reason) (s : State) : (refuse r s).out = s.out := rfl
@[simp] theorem refuse_ev (r : Reason) (s : State) : (refuse r s).ev = s.ev := rfl
@[simp] theorem refuse_faults (r : Reason) (s : State) : (refuse r s).faults = s.faults := rfl
@[simp] theorem refuse_refused (r : Reason) (s : State) : (refuse r s).refused = some (s.refused.getD r) := rfl
@[simp] theorem refuse_cancelStep2 (r : Reason) (s : State) : (refuse r s).cancelStep2 = s.cancelStep2 := rfl
@[simp] theorem refuse_queue (r : Reason) (s : State) : (refuse r s).queue = s.queue := rfl
@[simp] theorem refuse_draws (r : Reason) (s : State) : (refuse r s).draws = s.draws := rfl
@[simp] theorem refuse_reconfigEffects (r : Reason) (s : State) : (refuse r s).reconfigEffects = s.reconfigEffects := rfl

@[simp] theorem setSrBit_cr (i : Nat) (b : Bool) (s : State) : (setSrBit i b s).cr = s.cr := rfl
@[simp] theorem setSrBit_sr (i : Nat) (b : Bool) (s : State) : (setSrBit i b s).sr = putBit s.sr i b := rfl
@[simp] theorem setSrBit_dr (i : Nat) (b : Bool) (s : State) : (setSrBit i b s).dr = s.dr := rfl
@[simp] theorem setSrBit_drLoaded (i : Nat) (b : Bool) (s : State) : (setSrBit i b s).drLoaded = s.drLoaded := rfl
@[simp] theorem setSrBit_backend (i : Nat) (b : Bool) (s : State) : (setSrBit i b s).backend = s.backend := rfl
@[simp] theorem setSrBit_client (i : Nat) (b : Bool) (s : State) : (setSrBit i b s).client = s.client := rfl
@[simp] theorem setSrBit_phase (i : Nat) (b : Bool) (s : State) : (setSrBit i b s).phase = s.phase := rfl
@[simp] theorem setSrBit_seq (i : Nat) (b : Bool) (s : State) : (setSrBit i b s).seq = s.seq := rfl
@[simp] theorem setSrBit_hsr (i : Nat) (b : Bool) (s : State) : (setSrBit i b s).hsr = s.hsr := rfl
@[simp] theorem setSrBit_out (i : Nat) (b : Bool) (s : State) : (setSrBit i b s).out = s.out := rfl
@[simp] theorem setSrBit_ev (i : Nat) (b : Bool) (s : State) : (setSrBit i b s).ev = s.ev := rfl
@[simp] theorem setSrBit_faults (i : Nat) (b : Bool) (s : State) : (setSrBit i b s).faults = s.faults := rfl
@[simp] theorem setSrBit_refused (i : Nat) (b : Bool) (s : State) : (setSrBit i b s).refused = s.refused := rfl
@[simp] theorem setSrBit_cancelStep2 (i : Nat) (b : Bool) (s : State) : (setSrBit i b s).cancelStep2 = s.cancelStep2 := rfl
@[simp] theorem setSrBit_queue (i : Nat) (b : Bool) (s : State) : (setSrBit i b s).queue = s.queue := rfl
@[simp] theorem setSrBit_draws (i : Nat) (b : Bool) (s : State) : (setSrBit i b s).draws = s.draws := rfl
@[simp] theorem setSrBit_reconfigEffects (i : Nat) (b : Bool) (s : State) : (setSrBit i b s).reconfigEffects = s.reconfigEffects := rfl

@[simp] theorem enterHandler_cr (s : State) : (enterHandler s).cr = s.cr := rfl
@[simp] theorem enterHandler_sr (s : State) : (enterHandler s).sr = s.sr := rfl
@[simp] theorem enterHandler_dr (s : State) : (enterHandler s).dr = s.dr := rfl
@[simp] theorem enterHandler_drLoaded (s : State) : (enterHandler s).drLoaded = s.drLoaded := rfl
@[simp] theorem enterHandler_backend (s : State) : (enterHandler s).backend = s.backend := rfl
@[simp] theorem enterHandler_client (s : State) : (enterHandler s).client = s.client := rfl
@[simp] theorem enterHandler_phase (s : State) : (enterHandler s).phase = .running .h1 := rfl
@[simp] theorem enterHandler_seq (s : State) : (enterHandler s).seq = s.seq := rfl
@[simp] theorem enterHandler_hsr (s : State) : (enterHandler s).hsr = s.hsr := rfl
@[simp] theorem enterHandler_out (s : State) : (enterHandler s).out = s.out := rfl
@[simp] theorem enterHandler_ev (s : State) : (enterHandler s).ev = s.ev := rfl
@[simp] theorem enterHandler_faults (s : State) : (enterHandler s).faults = s.faults := rfl
@[simp] theorem enterHandler_refused (s : State) : (enterHandler s).refused = s.refused := rfl
@[simp] theorem enterHandler_cancelStep2 (s : State) : (enterHandler s).cancelStep2 = s.cancelStep2 := rfl
@[simp] theorem enterHandler_queue (s : State) : (enterHandler s).queue = s.queue := rfl
@[simp] theorem enterHandler_draws (s : State) : (enterHandler s).draws = s.draws := rfl
@[simp] theorem enterHandler_reconfigEffects (s : State) : (enterHandler s).reconfigEffects = s.reconfigEffects := rfl

@[simp] theorem returnHandler_cr (s : State) : (returnHandler s).cr = s.cr := rfl
@[simp] theorem returnHandler_sr (s : State) : (returnHandler s).sr = s.sr := rfl
@[simp] theorem returnHandler_dr (s : State) : (returnHandler s).dr = s.dr := rfl
@[simp] theorem returnHandler_drLoaded (s : State) : (returnHandler s).drLoaded = s.drLoaded := rfl
@[simp] theorem returnHandler_backend (s : State) : (returnHandler s).backend = s.backend := rfl
@[simp] theorem returnHandler_client (s : State) : (returnHandler s).client = s.client := rfl
@[simp] theorem returnHandler_phase (s : State) : (returnHandler s).phase = .idle := rfl
@[simp] theorem returnHandler_seq (s : State) : (returnHandler s).seq = s.seq := rfl
@[simp] theorem returnHandler_hsr (s : State) : (returnHandler s).hsr = s.hsr := rfl
@[simp] theorem returnHandler_out (s : State) : (returnHandler s).out = s.out := rfl
@[simp] theorem returnHandler_ev (s : State) : (returnHandler s).ev = s.ev := rfl
@[simp] theorem returnHandler_faults (s : State) : (returnHandler s).faults = s.faults := rfl
@[simp] theorem returnHandler_refused (s : State) : (returnHandler s).refused = s.refused := rfl
@[simp] theorem returnHandler_cancelStep2 (s : State) : (returnHandler s).cancelStep2 = s.cancelStep2 := rfl
@[simp] theorem returnHandler_queue (s : State) : (returnHandler s).queue = s.queue := rfl
@[simp] theorem returnHandler_draws (s : State) : (returnHandler s).draws = s.draws := rfl
@[simp] theorem returnHandler_reconfigEffects (s : State) : (returnHandler s).reconfigEffects = s.reconfigEffects := rfl

@[simp] theorem goTo_cr (label : HandlerStep) (s : State) : (goTo label s).cr = s.cr := rfl
@[simp] theorem goTo_sr (label : HandlerStep) (s : State) : (goTo label s).sr = s.sr := rfl
@[simp] theorem goTo_dr (label : HandlerStep) (s : State) : (goTo label s).dr = s.dr := rfl
@[simp] theorem goTo_drLoaded (label : HandlerStep) (s : State) : (goTo label s).drLoaded = s.drLoaded := rfl
@[simp] theorem goTo_backend (label : HandlerStep) (s : State) : (goTo label s).backend = s.backend := rfl
@[simp] theorem goTo_client (label : HandlerStep) (s : State) : (goTo label s).client = s.client := rfl
@[simp] theorem goTo_phase (label : HandlerStep) (s : State) : (goTo label s).phase = .running label := rfl
@[simp] theorem goTo_seq (label : HandlerStep) (s : State) : (goTo label s).seq = s.seq := rfl
@[simp] theorem goTo_hsr (label : HandlerStep) (s : State) : (goTo label s).hsr = s.hsr := rfl
@[simp] theorem goTo_out (label : HandlerStep) (s : State) : (goTo label s).out = s.out := rfl
@[simp] theorem goTo_ev (label : HandlerStep) (s : State) : (goTo label s).ev = s.ev := rfl
@[simp] theorem goTo_faults (label : HandlerStep) (s : State) : (goTo label s).faults = s.faults := rfl
@[simp] theorem goTo_refused (label : HandlerStep) (s : State) : (goTo label s).refused = s.refused := rfl
@[simp] theorem goTo_cancelStep2 (label : HandlerStep) (s : State) : (goTo label s).cancelStep2 = s.cancelStep2 := rfl
@[simp] theorem goTo_queue (label : HandlerStep) (s : State) : (goTo label s).queue = s.queue := rfl
@[simp] theorem goTo_draws (label : HandlerStep) (s : State) : (goTo label s).draws = s.draws := rfl
@[simp] theorem goTo_reconfigEffects (label : HandlerStep) (s : State) : (goTo label s).reconfigEffects = s.reconfigEffects := rfl

@[simp] theorem afterDrRead_cr (s : State) : (afterDrRead s).cr = s.cr := rfl
@[simp] theorem afterDrRead_sr (s : State) : (afterDrRead s).sr = putBit s.sr drdyBit false := rfl
@[simp] theorem afterDrRead_dr (s : State) : (afterDrRead s).dr = s.dr := rfl
@[simp] theorem afterDrRead_drLoaded (s : State) : (afterDrRead s).drLoaded = s.drLoaded := rfl
@[simp] theorem afterDrRead_backend (s : State) : (afterDrRead s).backend = s.backend := rfl
@[simp] theorem afterDrRead_client (s : State) : (afterDrRead s).client = s.client := rfl
@[simp] theorem afterDrRead_phase (s : State) : (afterDrRead s).phase = s.phase := rfl
@[simp] theorem afterDrRead_seq (s : State) : (afterDrRead s).seq = s.seq := rfl
@[simp] theorem afterDrRead_hsr (s : State) : (afterDrRead s).hsr = s.hsr := rfl
@[simp] theorem afterDrRead_out (s : State) : (afterDrRead s).out = s.out := rfl
@[simp] theorem afterDrRead_ev (s : State) : (afterDrRead s).ev = s.ev := rfl
@[simp] theorem afterDrRead_faults (s : State) : (afterDrRead s).faults = s.faults := rfl
@[simp] theorem afterDrRead_refused (s : State) : (afterDrRead s).refused = s.refused := rfl
@[simp] theorem afterDrRead_cancelStep2 (s : State) : (afterDrRead s).cancelStep2 = s.cancelStep2 := rfl
@[simp] theorem afterDrRead_queue (s : State) : (afterDrRead s).queue = s.queue := rfl
@[simp] theorem afterDrRead_draws (s : State) : (afterDrRead s).draws = if s.drLoaded then s.draws else s.draws + 1 := rfl
@[simp] theorem afterDrRead_reconfigEffects (s : State) : (afterDrRead s).reconfigEffects = s.reconfigEffects := rfl

@[simp] theorem loadWord_cr (w : Word) (s : State) : (loadWord w s).cr = s.cr := rfl
@[simp] theorem loadWord_sr (w : Word) (s : State) : (loadWord w s).sr = putBit s.sr drdyBit true := rfl
@[simp] theorem loadWord_dr (w : Word) (s : State) : (loadWord w s).dr = w := rfl
@[simp] theorem loadWord_drLoaded (w : Word) (s : State) : (loadWord w s).drLoaded = true := rfl
@[simp] theorem loadWord_backend (w : Word) (s : State) : (loadWord w s).backend = s.backend := rfl
@[simp] theorem loadWord_client (w : Word) (s : State) : (loadWord w s).client = s.client := rfl
@[simp] theorem loadWord_phase (w : Word) (s : State) : (loadWord w s).phase = s.phase := rfl
@[simp] theorem loadWord_seq (w : Word) (s : State) : (loadWord w s).seq = s.seq := rfl
@[simp] theorem loadWord_hsr (w : Word) (s : State) : (loadWord w s).hsr = s.hsr := rfl
@[simp] theorem loadWord_out (w : Word) (s : State) : (loadWord w s).out = s.out := rfl
@[simp] theorem loadWord_ev (w : Word) (s : State) : (loadWord w s).ev = s.ev := rfl
@[simp] theorem loadWord_faults (w : Word) (s : State) : (loadWord w s).faults = s.faults := rfl
@[simp] theorem loadWord_refused (w : Word) (s : State) : (loadWord w s).refused = s.refused := rfl
@[simp] theorem loadWord_cancelStep2 (w : Word) (s : State) : (loadWord w s).cancelStep2 = s.cancelStep2 := rfl
@[simp] theorem loadWord_queue (w : Word) (s : State) : (loadWord w s).queue = s.queue := rfl
@[simp] theorem loadWord_draws (w : Word) (s : State) : (loadWord w s).draws = s.draws := rfl
@[simp] theorem loadWord_reconfigEffects (w : Word) (s : State) : (loadWord w s).reconfigEffects = s.reconfigEffects := rfl

@[simp] theorem enableLine_cr (id : ClockId) (s : State) : (enableLine id s).cr = s.cr := rfl
@[simp] theorem enableLine_sr (id : ClockId) (s : State) : (enableLine id s).sr = s.sr := rfl
@[simp] theorem enableLine_dr (id : ClockId) (s : State) : (enableLine id s).dr = s.dr := rfl
@[simp] theorem enableLine_drLoaded (id : ClockId) (s : State) : (enableLine id s).drLoaded = s.drLoaded := rfl
@[simp] theorem enableLine_backend (id : ClockId) (s : State) : (enableLine id s).backend = setLine (if id = .rtc then { s.backend with rtcSrc := .lsi } else s.backend) id true := rfl
@[simp] theorem enableLine_client (id : ClockId) (s : State) : (enableLine id s).client = s.client := rfl
@[simp] theorem enableLine_phase (id : ClockId) (s : State) : (enableLine id s).phase = s.phase := rfl
@[simp] theorem enableLine_seq (id : ClockId) (s : State) : (enableLine id s).seq = s.seq := rfl
@[simp] theorem enableLine_hsr (id : ClockId) (s : State) : (enableLine id s).hsr = s.hsr := rfl
@[simp] theorem enableLine_out (id : ClockId) (s : State) : (enableLine id s).out = s.out := rfl
@[simp] theorem enableLine_ev (id : ClockId) (s : State) : (enableLine id s).ev = s.ev := rfl
@[simp] theorem enableLine_faults (id : ClockId) (s : State) : (enableLine id s).faults = s.faults := rfl
@[simp] theorem enableLine_refused (id : ClockId) (s : State) : (enableLine id s).refused = s.refused := rfl
@[simp] theorem enableLine_cancelStep2 (id : ClockId) (s : State) : (enableLine id s).cancelStep2 = s.cancelStep2 := rfl
@[simp] theorem enableLine_queue (id : ClockId) (s : State) : (enableLine id s).queue = s.queue := rfl
@[simp] theorem enableLine_draws (id : ClockId) (s : State) : (enableLine id s).draws = s.draws := rfl
@[simp] theorem enableLine_reconfigEffects (id : ClockId) (s : State) : (enableLine id s).reconfigEffects = s.reconfigEffects := rfl

@[simp] theorem disableLine_cr (id : ClockId) (s : State) : (disableLine id s).cr = s.cr := rfl
@[simp] theorem disableLine_sr (id : ClockId) (s : State) : (disableLine id s).sr = s.sr := rfl
@[simp] theorem disableLine_dr (id : ClockId) (s : State) : (disableLine id s).dr = s.dr := rfl
@[simp] theorem disableLine_drLoaded (id : ClockId) (s : State) : (disableLine id s).drLoaded = s.drLoaded := rfl
@[simp] theorem disableLine_backend (id : ClockId) (s : State) : (disableLine id s).backend = setLine s.backend id false := rfl
@[simp] theorem disableLine_client (id : ClockId) (s : State) : (disableLine id s).client = s.client := rfl
@[simp] theorem disableLine_phase (id : ClockId) (s : State) : (disableLine id s).phase = s.phase := rfl
@[simp] theorem disableLine_seq (id : ClockId) (s : State) : (disableLine id s).seq = s.seq := rfl
@[simp] theorem disableLine_hsr (id : ClockId) (s : State) : (disableLine id s).hsr = s.hsr := rfl
@[simp] theorem disableLine_out (id : ClockId) (s : State) : (disableLine id s).out = s.out := rfl
@[simp] theorem disableLine_ev (id : ClockId) (s : State) : (disableLine id s).ev = s.ev := rfl
@[simp] theorem disableLine_faults (id : ClockId) (s : State) : (disableLine id s).faults = s.faults := rfl
@[simp] theorem disableLine_refused (id : ClockId) (s : State) : (disableLine id s).refused = s.refused := rfl
@[simp] theorem disableLine_cancelStep2 (id : ClockId) (s : State) : (disableLine id s).cancelStep2 = s.cancelStep2 := rfl
@[simp] theorem disableLine_queue (id : ClockId) (s : State) : (disableLine id s).queue = s.queue := rfl
@[simp] theorem disableLine_draws (id : ClockId) (s : State) : (disableLine id s).draws = s.draws := rfl
@[simp] theorem disableLine_reconfigEffects (id : ClockId) (s : State) : (disableLine id s).reconfigEffects = s.reconfigEffects := rfl

@[simp] theorem scheduleWord_cr (w : Command) (s : State) : (scheduleWord w s).cr = s.cr := rfl
@[simp] theorem scheduleWord_sr (w : Command) (s : State) : (scheduleWord w s).sr = s.sr := rfl
@[simp] theorem scheduleWord_dr (w : Command) (s : State) : (scheduleWord w s).dr = s.dr := rfl
@[simp] theorem scheduleWord_drLoaded (w : Command) (s : State) : (scheduleWord w s).drLoaded = s.drLoaded := rfl
@[simp] theorem scheduleWord_backend (w : Command) (s : State) : (scheduleWord w s).backend = s.backend := rfl
@[simp] theorem scheduleWord_client (w : Command) (s : State) : (scheduleWord w s).client = s.client := rfl
@[simp] theorem scheduleWord_phase (w : Command) (s : State) : (scheduleWord w s).phase = s.phase := rfl
@[simp] theorem scheduleWord_seq (w : Command) (s : State) : (scheduleWord w s).seq = s.seq := rfl
@[simp] theorem scheduleWord_hsr (w : Command) (s : State) : (scheduleWord w s).hsr = s.hsr := rfl
@[simp] theorem scheduleWord_out (w : Command) (s : State) : (scheduleWord w s).out = s.out := rfl
@[simp] theorem scheduleWord_ev (w : Command) (s : State) : (scheduleWord w s).ev = s.ev := rfl
@[simp] theorem scheduleWord_faults (w : Command) (s : State) : (scheduleWord w s).faults = s.faults := rfl
@[simp] theorem scheduleWord_refused (w : Command) (s : State) : (scheduleWord w s).refused = s.refused := rfl
@[simp] theorem scheduleWord_cancelStep2 (w : Command) (s : State) : (scheduleWord w s).cancelStep2 = s.cancelStep2 := rfl
@[simp] theorem scheduleWord_queue (w : Command) (s : State) : (scheduleWord w s).queue = .atOnce w :: s.queue := rfl
@[simp] theorem scheduleWord_draws (w : Command) (s : State) : (scheduleWord w s).draws = s.draws := rfl
@[simp] theorem scheduleWord_reconfigEffects (w : Command) (s : State) : (scheduleWord w s).reconfigEffects = s.reconfigEffects := rfl

@[simp] theorem rngReconfigure_cr (s : State) : (rngReconfigure s).cr = s.cr := by
  unfold rngReconfigure; split <;> rfl
@[simp] theorem rngReconfigure_sr (s : State) : (rngReconfigure s).sr = s.sr := by
  unfold rngReconfigure; split <;> rfl
@[simp] theorem rngReconfigure_dr (s : State) : (rngReconfigure s).dr = s.dr := by
  unfold rngReconfigure; split <;> rfl
@[simp] theorem rngReconfigure_drLoaded (s : State) : (rngReconfigure s).drLoaded = s.drLoaded := by
  unfold rngReconfigure; split <;> rfl
@[simp] theorem rngReconfigure_client (s : State) : (rngReconfigure s).client = s.client := by
  unfold rngReconfigure; split <;> rfl
@[simp] theorem rngReconfigure_phase (s : State) : (rngReconfigure s).phase = s.phase := by
  unfold rngReconfigure; split <;> rfl
@[simp] theorem rngReconfigure_seq (s : State) : (rngReconfigure s).seq = s.seq := by
  unfold rngReconfigure; split <;> rfl
@[simp] theorem rngReconfigure_hsr (s : State) : (rngReconfigure s).hsr = s.hsr := by
  unfold rngReconfigure; split <;> rfl
@[simp] theorem rngReconfigure_out (s : State) : (rngReconfigure s).out = s.out := by
  unfold rngReconfigure; split <;> rfl
@[simp] theorem rngReconfigure_faults (s : State) : (rngReconfigure s).faults = s.faults := by
  unfold rngReconfigure; split <;> rfl
@[simp] theorem rngReconfigure_refused (s : State) : (rngReconfigure s).refused = s.refused := by
  unfold rngReconfigure; split <;> rfl
@[simp] theorem rngReconfigure_cancelStep2 (s : State) : (rngReconfigure s).cancelStep2 = s.cancelStep2 := by
  unfold rngReconfigure; split <;> rfl
@[simp] theorem rngReconfigure_queue (s : State) : (rngReconfigure s).queue = s.queue := by
  unfold rngReconfigure; split <;> rfl
@[simp] theorem rngReconfigure_draws (s : State) : (rngReconfigure s).draws = s.draws := by
  unfold rngReconfigure; split <;> rfl

@[simp] theorem rngReconfigure_ev (s : State) : (rngReconfigure s).ev = s.ev ++ [.rngReconfigure] := by
  unfold rngReconfigure; split <;> rfl

/-- The spec's default effect of the hook: no change of the backend (41_clock_handle.md R124). -/
theorem rngReconfigure_default (s : State) (h : s.reconfigEffects = []) :
    rngReconfigure s = logEvent .rngReconfigure s := by
  unfold rngReconfigure; rw [h]

/-- A listed effect of the hook is what the backend becomes. -/
theorem rngReconfigure_listed (s : State) (b : Backend) (rest : List Backend) (h : s.reconfigEffects = b :: rest) :
    rngReconfigure s = { s with ev := s.ev ++ [.rngReconfigure], backend := b, reconfigEffects := rest } := by
  unfold rngReconfigure; rw [h]; rfl

@[simp] theorem rngClockOn_emit (m : Emitter) (r : Result) (s : State) : rngClockOn (emit m r s) = rngClockOn s := rfl
@[simp] theorem rngClockOn_logEvent (e : Event) (s : State) : rngClockOn (logEvent e s) = rngClockOn s := rfl
@[simp] theorem rngClockOn_goTo (label : HandlerStep) (s : State) : rngClockOn (goTo label s) = rngClockOn s := rfl
@[simp] theorem rngClockOn_afterDrRead (s : State) : rngClockOn (afterDrRead s) = rngClockOn s := rfl

end Sys2Proof.Machine
end

