-- ==== Sys2Proof/Laws/Ops.lean ====
section
/-! SUPPORT. What the shared operations do: register accesses with the RNG clock on and off, and the handler's micro-steps. -/

namespace Sys2Proof.Machine

@[simp] theorem andThen_done {α : Type} (v : α) (s : State) (next : α → State → State) :
    andThen (.done v s) next = next v s := rfl

@[simp] theorem andThen_faulted {α : Type} (s : State) (next : α → State → State) :
    andThen (.faulted s) next = s := rfl

/-! Register accesses (20_memory.md R62, R63, R77). -/

theorem regRead_cr_on (s : State) (h : rngClockOn s = true) : regRead .cr s = .done (s.cr &&& crMask) s := by
  unfold regRead; rw [if_pos h]

theorem regRead_sr_on (s : State) (h : rngClockOn s = true) : regRead .sr s = .done (s.sr &&& srMask) s := by
  unfold regRead; rw [if_pos h]

theorem regRead_dr_on (s : State) (h : rngClockOn s = true) : regRead .dr s = .done (drWord s) (afterDrRead s) := by
  unfold regRead; rw [if_pos h]

theorem regRead_off (r : Reg) (s : State) (h : rngClockOn s = false) :
    regRead r s = .faulted (raiseFault (.rngClockGated r) s) := by
  unfold regRead; rw [if_neg (by simp [h])]

theorem regWrite_cr_on (v : Word) (s : State) (h : rngClockOn s = true) :
    regWrite .cr v s = .done () { s with cr := crAfterWrite v } := by
  unfold regWrite; rw [if_pos h]

theorem regWrite_sr_on (v : Word) (s : State) (h : rngClockOn s = true) :
    regWrite .sr v s = .done () { s with sr := srAfterWrite s.sr v } := by
  unfold regWrite; rw [if_pos h]

theorem regWrite_dr_on (v : Word) (s : State) (h : rngClockOn s = true) : regWrite .dr v s = .done () s := by
  unfold regWrite; rw [if_pos h]

theorem regWrite_off (r : Reg) (v : Word) (s : State) (h : rngClockOn s = false) :
    regWrite r v s = .faulted (raiseFault (.rngClockGated r) s) := by
  unfold regWrite; rw [if_neg (by simp [h])]

/-- ModifyCR with the RNG clock on: one CR write, nothing else (20_memory.md R65). -/
theorem modifyCR_on (f : Word → Word) (s : State) (h : rngClockOn s = true) :
    modifyCR f s = .done () { s with cr := crAfterWrite (f (s.cr &&& crMask)) } := by
  unfold modifyCR; rw [regRead_cr_on s h]; exact regWrite_cr_on _ s h

/-- ModifyCR with the RNG clock gated: the fault of its read, nothing else (20_memory.md R62). -/
theorem modifyCR_off (f : Word → Word) (s : State) (h : rngClockOn s = false) :
    modifyCR f s = .faulted (raiseFault (.rngClockGated .cr) s) := by
  unfold modifyCR; rw [regRead_off .cr s h]

/-- A field of SR is read through the read mask: SEIS. -/
theorem seis_of_read (s : State) : (s.sr &&& srMask).getLsbD seisBit = seisSet s := by
  simp only [BitVec.getLsbD_and, getLsbD_srMask, seisBit, seisSet]; simp

/-- A field of SR is read through the read mask: CEIS. -/
theorem ceis_of_read (s : State) : (s.sr &&& srMask).getLsbD ceisBit = ceisSet s := by
  simp only [BitVec.getLsbD_and, getLsbD_srMask, ceisBit, ceisSet]; simp

/-- A field of SR is read through the read mask: DRDY. -/
theorem drdy_of_read (s : State) : (s.sr &&& srMask).getLsbD drdyBit = drdySet s := by
  simp only [BitVec.getLsbD_and, getLsbD_srMask, drdyBit, drdySet]; simp

/-! The handler's micro-steps with the RNG clock on (44_trng_interrupt.md R191). -/

theorem microH1_on (s : State) (h : rngClockOn s = true) :
    microH1 s = goTo (if seisSet s then .h2 else .h7) s := by
  rw [microH1, regRead_sr_on s h, andThen_done, seis_of_read]

theorem microH2_on (s : State) (h : rngClockOn s = true) :
    microH2 s = goTo .h3 { s with hsr := s.sr &&& srMask } := by
  rw [microH2, regRead_sr_on s h, andThen_done]

theorem microH3_on (s : State) (h : rngClockOn s = true) :
    microH3 s = goTo .h4 { s with sr := srAfterWrite s.sr (putBit s.hsr seisBit false) } := by
  rw [microH3, regWrite_sr_on _ s h, andThen_done]

theorem microH4_on (s : State) (h : rngClockOn s = true) : microH4 s = goTo .h5 (afterDrRead s) := by
  rw [microH4, regRead_dr_on s h, andThen_done]

theorem microH5_on (s : State) (h : rngClockOn s = true) :
    microH5 s = goTo .h6 { s with cr := crAfterWrite (putBit (s.cr &&& crMask) rngenBit false) } := by
  rw [microH5, modifyCR_on _ s h, andThen_done]

theorem microH6_on (s : State) (h : rngClockOn s = true) :
    microH6 s = returnHandler { s with cr := crAfterWrite (putBit (s.cr &&& crMask) rngenBit true) } := by
  rw [microH6, modifyCR_on _ s h, andThen_done]

theorem microH7_on (s : State) (h : rngClockOn s = true) :
    microH7 s = goTo (if ceisSet s then .h8 else .h11) s := by
  rw [microH7, regRead_sr_on s h, andThen_done, ceis_of_read]

/-- H8 touches no register, so it needs no clock (44_trng_interrupt.md R198). -/
theorem microH8_eq (s : State) : microH8 s = goTo .h9 (rngReconfigure s) := by
  simp [microH8, configure, Config.drvClock]

theorem microH9_on (s : State) (h : rngClockOn s = true) :
    microH9 s = goTo .h10 { s with hsr := s.sr &&& srMask } := by
  rw [microH9, regRead_sr_on s h, andThen_done]

theorem microH10_on (s : State) (h : rngClockOn s = true) :
    microH10 s = returnHandler { s with sr := srAfterWrite s.sr (putBit s.hsr ceisBit false) } := by
  rw [microH10, regWrite_sr_on _ s h, andThen_done]

/-- Every micro-step but H8 and H11 is a register access; with the clock gated its fault is its whole effect
(60_exceptions.md R253). -/
theorem handlerStep_off (label : HandlerStep) (s : State) (h : rngClockOn s = false) (h8 : label ≠ .h8)
    (h11 : label ≠ .h11) : ∃ r, handlerStep label s = raiseFault (.rngClockGated r) s := by
  cases label with
  | h1 => exact ⟨.sr, by simp [handlerStep, microH1, regRead_off .sr s h]⟩
  | h2 => exact ⟨.sr, by simp [handlerStep, microH2, regRead_off .sr s h]⟩
  | h3 => exact ⟨.sr, by simp [handlerStep, microH3, regWrite_off .sr _ s h]⟩
  | h4 => exact ⟨.dr, by simp [handlerStep, microH4, regRead_off .dr s h]⟩
  | h5 => exact ⟨.cr, by simp [handlerStep, microH5, modifyCR_off _ s h]⟩
  | h6 => exact ⟨.cr, by simp [handlerStep, microH6, modifyCR_off _ s h]⟩
  | h7 => exact ⟨.sr, by simp [handlerStep, microH7, regRead_off .sr s h]⟩
  | h8 => exact absurd rfl h8
  | h9 => exact ⟨.sr, by simp [handlerStep, microH9, regRead_off .sr s h]⟩
  | h10 => exact ⟨.sr, by simp [handlerStep, microH10, regWrite_off .sr _ s h]⟩
  | h11 => exact absurd rfl h11

/-- TRNG_CANCEL's second write with the RNG clock on (43_trng_driver.md R173). -/
theorem cancelSecondWrite_on (s : State) (h : rngClockOn s = true) :
    cancelSecondWrite s = emit .trngCancel .ok
      { s with cr := crAfterWrite (putBit (s.cr &&& crMask) ieBit false), cancelStep2 := false } := by
  rw [cancelSecondWrite, modifyCR_on _ s h, andThen_done]

theorem cancelSecondWrite_off (s : State) (h : rngClockOn s = false) :
    cancelSecondWrite s = raiseFault (.rngClockGated .cr) s := by
  rw [cancelSecondWrite, modifyCR_off _ s h, andThen_faulted]

end Sys2Proof.Machine
end

