-- ==== Sys2Proof/Laws/PerInstr.lean ====
section
/-! SUPPORT. One lemma per instruction: its encoding lies in its own row of spec/opcode_table.json, whatever the operand. -/

namespace Sys2Proof.Laws.OpcodeTableRow

/-- The "match" and "mask" of an instruction's row, copied from spec/opcode_table.json. -/
def tableRow : Instr → Command × Command
  | .clkIsEnabled _ => (0x010000000000, 0xFF00FFFFFFFF)
  | .clkEnable _ => (0x020000000000, 0xFF00FFFFFFFF)
  | .clkDisable _ => (0x030000000000, 0xFF00FFFFFFFF)
  | .clkGetFrequency _ => (0x040000000000, 0xFF00FFFFFFFF)
  | .clkConfigure _ => (0x050000000000, 0xFF00FFFFFFFF)
  | .regGpioHandle _ => (0x100000000000, 0xFF00FFFFFFFF)
  | .regPeriphHandle _ => (0x110000000000, 0xFF00FFFFFFFF)
  | .trngGet => (0x200000000000, 0xFFFFFFFFFFFF)
  | .trngCancel => (0x210000000000, 0xFFFFFFFFFFFF)
  | .trngSetClient _ => (0x220000000000, 0xFF00FFFFFFFF)
  | .trngIsEnabledClock => (0x230000000000, 0xFFFFFFFFFFFF)
  | .trngEnableClock => (0x240000000000, 0xFFFFFFFFFFFF)
  | .trngDisableClock => (0x250000000000, 0xFFFFFFFFFFFF)
  | .irqEnter => (0x400000000000, 0xFFFFFFFFFFFF)
  | .seqNext => (0x410000000000, 0xFFFFFFFFFFFF)
  | .clientReturn _ => (0x420000000000, 0xFF00FFFFFFFF)
  | .hwDataReady _ => (0x800000000000, 0xFFFF00000000)
  | .hwSeedError => (0x810000000000, 0xFFFFFFFFFFFF)
  | .hwClockError => (0x820000000000, 0xFFFFFFFFFFFF)
  | .hwSeedCurrent _ => (0x830000000000, 0xFF00FFFFFFFF)
  | .hwClockCurrent _ => (0x840000000000, 0xFF00FFFFFFFF)
  | .envSetSysfreq _ => (0x900000000000, 0xFFFF00000000)
  | .envSetApb1Presc _ => (0x910000000000, 0xFF00FFFFFFFF)
  | .envSetApb2Presc _ => (0x920000000000, 0xFF00FFFFFFFF)
  | .envSetTimpre _ => (0x930000000000, 0xFF00FFFFFFFF)

/-- The encoded word matches its row under the row's mask. -/
def Statement (i : Instr) : Prop := encode i &&& (tableRow i).2 = (tableRow i).1

/-- A mask that keeps the opcode and some of the other fields. -/
theorem packCommand_and (o p p' : Byte) (d d' : Word) :
    packCommand o p d &&& packCommand 0xFF p' d' = packCommand o (p &&& p') (d &&& d') := by
  apply BitVec.eq_of_getLsbD_eq; intro i hi
  rw [BitVec.getLsbD_and, getLsbD_packCommand, getLsbD_packCommand, getLsbD_packCommand]
  by_cases h : i < 32
  · simp [h]
  · by_cases h' : i < 40
    · simp [h, h']
    · have hb : i - 40 < 8 := by omega
      have : (0xFF#8).getLsbD (i - 40) = true := by
        generalize i - 40 = j at hb
        interval_cases j <;> rfl
      simp [h, h', this]

/-- The mask of the formats with an operand, 0xFF00FFFFFFFF. -/
theorem operand_masked (o p : Byte) : packCommand o p 0 &&& 0xFF00FFFFFFFF = packCommand o 0 0 := by
  rw [show (0xFF00FFFFFFFF : Command) = packCommand 0xFF 0 0xFFFFFFFF by decide, packCommand_and]
  simp

/-- The mask of format W, 0xFFFF00000000. -/
theorem payload_masked (o : Byte) (d : Word) : packCommand o 0 d &&& 0xFFFF00000000 = packCommand o 0 0 := by
  rw [show (0xFFFF00000000 : Command) = packCommand 0xFF 0xFF 0 by decide, packCommand_and]
  simp

theorem clkIsEnabled (id : ClockId) : Statement (.clkIsEnabled id) := (operand_masked _ _).trans rfl
theorem clkEnable (id : ClockId) : Statement (.clkEnable id) := (operand_masked _ _).trans rfl
theorem clkDisable (id : ClockId) : Statement (.clkDisable id) := (operand_masked _ _).trans rfl
theorem clkGetFrequency (id : ClockId) : Statement (.clkGetFrequency id) := (operand_masked _ _).trans rfl
theorem clkConfigure (id : ClockId) : Statement (.clkConfigure id) := (operand_masked _ _).trans rfl
theorem regGpioHandle (idx : Nat) : Statement (.regGpioHandle idx) := (operand_masked _ _).trans rfl
theorem regPeriphHandle (idx : Nat) : Statement (.regPeriphHandle idx) := (operand_masked _ _).trans rfl
theorem trngGet : Statement .trngGet := by unfold Statement; decide
theorem trngCancel : Statement .trngCancel := by unfold Statement; decide
theorem trngSetClient (c : Nat) : Statement (.trngSetClient c) := (operand_masked _ _).trans rfl
theorem trngIsEnabledClock : Statement .trngIsEnabledClock := by unfold Statement; decide
theorem trngEnableClock : Statement .trngEnableClock := by unfold Statement; decide
theorem trngDisableClock : Statement .trngDisableClock := by unfold Statement; decide
theorem irqEnter : Statement .irqEnter := by unfold Statement; decide
theorem seqNext : Statement .seqNext := by unfold Statement; decide
theorem clientReturn (r : Answer) : Statement (.clientReturn r) := (operand_masked _ _).trans rfl
theorem hwDataReady (w : Word) : Statement (.hwDataReady w) := (payload_masked _ _).trans rfl
theorem hwSeedError : Statement .hwSeedError := by unfold Statement; decide
theorem hwClockError : Statement .hwClockError := by unfold Statement; decide
theorem hwSeedCurrent (b : Bool) : Statement (.hwSeedCurrent b) := (operand_masked _ _).trans rfl
theorem hwClockCurrent (b : Bool) : Statement (.hwClockCurrent b) := (operand_masked _ _).trans rfl
theorem envSetSysfreq (f : Word) : Statement (.envSetSysfreq f) := (payload_masked _ _).trans rfl
theorem envSetApb1Presc (p : Prescaler) : Statement (.envSetApb1Presc p) := (operand_masked _ _).trans rfl
theorem envSetApb2Presc (p : Prescaler) : Statement (.envSetApb2Presc p) := (operand_masked _ _).trans rfl
theorem envSetTimpre (b : Bool) : Statement (.envSetTimpre b) := (operand_masked _ _).trans rfl

end Sys2Proof.Laws.OpcodeTableRow
end

