-- ==== Sys2Proof/Laws/Step.lean ====
section
/-! SUPPORT. What one step can do: the inversion of `step`, and that every operation of the block answers a next state. -/

namespace Sys2Proof.Machine

/-- No arm of `exec` stops: faults and refusals are recorded in the next state (60_exceptions.md R252, R256). -/
theorem exec_next (i : Instr) (s : State) : ∃ t, exec i s = .next t := by
  cases i <;> exact ⟨_, rfl⟩

/-- An identity operand that decodes has a handle. -/
theorem identityOperand_ok (p : Byte) (build : ClockId → Instr) (i : Instr) (h : identityOperand p build = .ok i) :
    ∃ id, clockIdOfCode p = some id ∧ id.hasHandle = true ∧ i = build id := by
  unfold identityOperand at h
  split at h
  · cases h
  · rename_i id hid
    by_cases hh : id.hasHandle = true
    · rw [if_pos hh] at h; cases h; exact ⟨id, hid, hh, rfl⟩
    · rw [if_neg hh] at h; cases h

/-- A ranged operand that decodes is in its range. -/
theorem rangedOperand_ok (o : Option Instr) (i : Instr) (h : rangedOperand o = .ok i) : o = some i := by
  unfold rangedOperand at h
  split at h <;> cases h; rfl

/-- What a word that decodes is: its opcode names a row, its unused fields are zero and its operand passes the row's
checks (30_encoding.md R92). -/
theorem decode_ok (w : Command) (i : Instr) (h : decode w = .ok i) :
    ∃ row, opcodeMap (opcodeField w).toNat = some row ∧
      unusedFieldsZero row (operandField w) (payloadField w) = true ∧
      decodeOperand row (operandField w) (payloadField w) = .ok i := by
  unfold decode at h
  split at h
  · cases h
  · rename_i row hrow
    by_cases hz : unusedFieldsZero row (operandField w) (payloadField w) = true
    · rw [if_pos hz] at h; exact ⟨row, hrow, hz, h⟩
    · rw [if_neg hz] at h; cases h

/-- Every instruction the decoder reads is well-formed (30_encoding.md R92). -/
theorem decode_wellFormed (w : Command) (i : Instr) (h : decode w = .ok i) : i.wellFormed = true := by
  obtain ⟨row, hrow, -, hd⟩ := decode_ok w i h
  unfold opcodeMap at hrow
  split at hrow <;> cases hrow
  case h_1 | h_2 | h_3 | h_4 | h_5 =>
    obtain ⟨id, -, hh, rfl⟩ := identityOperand_ok _ _ _ hd; exact hh
  case h_6 | h_7 | h_10 =>
    have ho := rangedOperand_ok _ _ hd
    split at ho <;> cases ho
    simp_all [Instr.wellFormed]
  case h_16 | h_20 | h_21 | h_25 =>
    obtain ⟨b, -, rfl⟩ := Option.map_eq_some_iff.mp (rangedOperand_ok _ _ hd); rfl
  case h_23 | h_24 =>
    obtain ⟨p, -, rfl⟩ := Option.map_eq_some_iff.mp (rangedOperand_ok _ _ hd); rfl
  all_goals cases hd; rfl

/-- With no step of its own outstanding, the thread leaves the state alone. -/
theorem threadStep_free (s : State) (h : threadBusy s = false) : threadStep s = s := by
  unfold threadBusy at h
  simp only [Bool.or_eq_false_iff] at h
  unfold threadStep
  rw [if_neg (by simp [h.1])]
  have := h.2
  unfold inHandler at this
  split <;> simp_all

/-- In the handler, the thread's step is the micro-step its label names. -/
theorem threadStep_running (s : State) (label : HandlerStep) (hc : s.cancelStep2 = false)
    (hp : s.phase = .running label) : threadStep s = handlerStep label s := by
  unfold threadStep; rw [if_neg (by simp [hc]), hp]

/-- Between TRNG_CANCEL's writes, the thread's step is the second one. -/
theorem threadStep_cancel (s : State) (hc : s.cancelStep2 = true) : threadStep s = cancelSecondWrite s := by
  unfold threadStep; rw [if_pos hc]

/-- Where the thread is free, every operation may be issued. -/
theorem admitsNow_free (i : Instr) (s : State) (h : threadBusy s = false) : admitsNow i s = true := by
  have hc : s.cancelStep2 = false := by
    unfold threadBusy at h; simp only [Bool.or_eq_false_iff] at h; exact h.1
  unfold admitsNow; split <;> simp [hc, h]

/-- IRQ_ENTER is held back only inside a normal-context operation (20_memory.md R71 item 5). -/
theorem admitsNow_irqEnter (s : State) : admitsNow .irqEnter s = !(s.cancelStep2 && normalContext s) := rfl

@[simp] theorem normalContext_idle (s : State) (h : s.phase = .idle) : normalContext s = true := by
  simp [normalContext, h]

/-- Where IRQ_ENTER is issued and enters the handler, no TRNG_CANCEL is in progress. -/
theorem admitsNow_irqEnter_idle (s : State) (h : admitsNow .irqEnter s = true) (hp : s.phase = .idle) :
    s.cancelStep2 = false := by
  simpa [admitsNow_irqEnter, hp] using h

/-- The turns of a state: what the next step can be, and from which state it is taken. -/
theorem nextTurn_cases (s : State) :
    (∃ f rest, s.faults = f :: rest ∧ nextTurn s = .stopped f) ∨
    (s.faults = [] ∧ ∃ q, nextTurn s = .own { s with queue := q }) ∨
    (s.faults = [] ∧ ∃ r q, nextTurn s = .reject r { s with queue := q }) ∨
    (s.faults = [] ∧ ∃ i q w, decode w = .ok i ∧ admitsNow i s = true ∧
      nextTurn s = .issue i { s with queue := q }) := by
  cases hf : s.faults with
  | cons f rest => left; exact ⟨f, rest, rfl, by simp [nextTurn, hf]⟩
  | nil =>
    right
    cases hq : s.queue with
    | nil => left; exact ⟨rfl, s.queue, by simp [nextTurn, hf, hq]; cases s; simp_all⟩
    | cons slot rest =>
      cases slot with
      | thread => left; exact ⟨rfl, rest, by simp [nextTurn, hf, hq]⟩
      | inOrder w =>
        by_cases hb : threadBusy s = true
        · left; exact ⟨rfl, s.queue, by simp [nextTurn, hf, hq, hb]; cases s; simp_all⟩
        · right
          have hb : threadBusy s = false := by simpa using hb
          cases hd : decode w with
          | error r => left; exact ⟨rfl, r, rest, by simp [nextTurn, hf, hq, hb, issueWord, hd]⟩
          | ok i =>
            right
            exact ⟨rfl, i, rest, w, hd, admitsNow_free i s hb, by simp [nextTurn, hf, hq, hb, issueWord, hd]⟩
      | atOnce w =>
        cases hd : decode w with
        | error r => right; left; exact ⟨rfl, r, rest, by simp [nextTurn, hf, hq, issueIfAdmitted, hd]⟩
        | ok i =>
          by_cases ha : admitsNow i s = true
          · right; right
            exact ⟨rfl, i, rest, w, hd, ha, by simp [nextTurn, hf, hq, issueIfAdmitted, hd, ha]⟩
          · left
            exact ⟨rfl, s.queue, by simp [nextTurn, hf, hq, issueIfAdmitted, hd, ha]; cases s; simp_all⟩

/-- The inversion of `step`: if it answers a next state then no fault was recorded, and the step was the thread's own, the
refusal of a word, or a well-formed operation that may be issued at this boundary. -/
theorem step_cases (s t : State) (h : step s = .next t) :
    s.faults = [] ∧
    ((∃ q, t = threadStep { s with queue := q }) ∨
     (∃ r q, t = refuse r { s with queue := q }) ∨
     (∃ i q, i.wellFormed = true ∧ admitsNow i s = true ∧ exec i { s with queue := q } = .next t)) := by
  unfold step at h
  rcases nextTurn_cases s with ⟨f, rest, _, ht⟩ | ⟨hf, q, ht⟩ | ⟨hf, r, q, ht⟩ | ⟨hf, i, q, w, hd, ha, ht⟩
  · rw [ht] at h; cases h
  · rw [ht] at h; exact ⟨hf, .inl ⟨q, by cases h; rfl⟩⟩
  · rw [ht] at h; exact ⟨hf, .inr (.inl ⟨r, q, by cases h; rfl⟩)⟩
  · rw [ht] at h; exact ⟨hf, .inr (.inr ⟨i, q, decode_wellFormed w i hd, ha, h⟩)⟩

/-- Running no step, and running one step and then the rest. -/
@[simp] theorem steps_zero (s : State) : Safety.steps 0 s = .next s := rfl

theorem steps_succ (k : Nat) (s t : State) (h : step s = .next t) : Safety.steps (k + 1) s = Safety.steps k t := by
  rw [Safety.steps, h]

/-- In the handler with nothing scheduled, a step is the micro-step. -/
theorem step_running (s : State) (label : HandlerStep) (hf : s.faults = []) (hq : s.queue = [])
    (hc : s.cancelStep2 = false) (hp : s.phase = .running label) : step s = .next (handlerStep label s) := by
  simp [step, nextTurn, hf, hq, threadStep_running s label hc hp]

/-- In the handler with nothing scheduled, a run goes on from what the micro-step leaves. -/
theorem steps_running (k : Nat) (label : HandlerStep) (s t : State) (hf : s.faults = []) (hq : s.queue = [])
    (hc : s.cancelStep2 = false) (hp : s.phase = .running label) (ht : handlerStep label s = t) :
    Safety.steps (k + 1) s = Safety.steps k t := by
  subst ht; exact steps_succ k _ _ (step_running s label hf hq hc hp)

/-- A `thread` entry at the head of the schedule is the thread's own next step. -/
theorem step_thread (s : State) (rest : List Slot) (hf : s.faults = []) (hq : s.queue = .thread :: rest) :
    step s = .next (threadStep { s with queue := rest }) := by
  simp [step, nextTurn, hf, hq]

/-- A word at the head of the schedule that may be issued at this boundary is performed. -/
theorem step_atOnce (s : State) (w : Command) (i : Instr) (rest : List Slot) (hf : s.faults = [])
    (hq : s.queue = .atOnce w :: rest) (hd : decode w = .ok i) (ha : admitsNow i s = true) :
    step s = exec i { s with queue := rest } := by
  simp [step, nextTurn, hf, hq, issueIfAdmitted, hd, ha]

/-- A word at the head of the schedule is performed in program order once the thread is free. -/
theorem step_inOrder (s : State) (w : Command) (i : Instr) (rest : List Slot) (hf : s.faults = [])
    (hq : s.queue = .inOrder w :: rest) (hd : decode w = .ok i) (hb : threadBusy s = false) :
    step s = exec i { s with queue := rest } := by
  simp [step, nextTurn, hf, hq, issueWord, hd, hb]

/-- The inversion of `exec`: a property of the state that every kind of effect keeps holds of the next state. The premises
`emits`, `refuses`, `faults` and `backends` cover the operations that only emit, refuse, fault or write the backend. -/
theorem exec_cases (P : State → Prop) (i : Instr) (s t : State) (h : exec i s = .next t)
    (emits : ∀ m r, P (emit m r s)) (refuses : ∀ r, P (refuse r s)) (faults : ∀ f, P (raiseFault f s))
    (backends : ∀ b, P { s with backend := b })
    (get : i = .trngGet → rngClockOn s = true →
      P (emit .trngGet .ok { s with cr := crAfterWrite (putBit (putBit (s.cr &&& crMask) ieBit true) rngenBit true) }))
    (cancel : i = .trngCancel → rngClockOn s = true →
      P { s with cr := crAfterWrite (putBit (s.cr &&& crMask) rngenBit false), cancelStep2 := true })
    (client : ∀ c, i = .trngSetClient c → clientInRange c = true → P { s with client := some c })
    (enter : i = .irqEnter → s.phase = .idle → P (enterHandler s))
    (exhaust : i = .seqNext → s.phase = .clientActive → s.seq = .fresh → drdySet s = false →
      P (emit .seqNext (.word none) { s with seq := .exhausted }))
    (pull : i = .seqNext → s.phase = .clientActive → s.seq = .fresh → drdySet s = true →
      P (emit .seqNext (.word (some (drWord s))) (afterDrRead s)))
    (more : i = .clientReturn .more → s.phase = .clientActive → P (endInvocation .more s))
    (done : i = .clientReturn .done → s.phase = .clientActive → rngClockOn s = true →
      P (endInvocation .done
        { s with cr := crAfterWrite (putBit (putBit (s.cr &&& crMask) ieBit false) rngenBit false) }))
    (load : ∀ w, i = .hwDataReady w → P (loadWord w s))
    (seed : i = .hwSeedError → P (setSrBit seisBit true s))
    (clock : i = .hwClockError → P (setSrBit ceisBit true s))
    (seedNow : ∀ b, i = .hwSeedCurrent b → P (setSrBit secsBit b s))
    (clockNow : ∀ b, i = .hwClockCurrent b → P (setSrBit cecsBit b s)) : P t := by
  have withHandle_keeps : ∀ id next, P (next s) → P (withHandle id next s) := fun id next hn => by
    unfold withHandle; split
    · exact hn
    · exact refuses _
  have lookup_keeps : ∀ m e, P (reportHandle m e s) := fun m e => by
    unfold reportHandle; split
    · exact emits _ _
    · exact refuses _
  cases i <;> cases h
  case clkIsEnabled id => exact withHandle_keeps _ _ (emits _ _)
  case clkEnable id => exact withHandle_keeps _ _ (backends _)
  case clkDisable id => exact withHandle_keeps _ _ (backends _)
  case clkGetFrequency id =>
    apply withHandle_keeps; unfold reportFrequency; split
    · exact emits _ _
    · exact faults _
  case clkConfigure id => exact withHandle_keeps _ _ (refuses _)
  case regGpioHandle k => exact lookup_keeps _ _
  case regPeriphHandle k => exact lookup_keeps _ _
  case trngGet =>
    cases hc : rngClockOn s
    · rw [modifyCR_off _ s hc]; exact faults _
    · rw [modifyCR_on _ s hc]; exact get rfl hc
  case trngCancel =>
    cases hc : rngClockOn s
    · rw [modifyCR_off _ s hc]; exact faults _
    · rw [modifyCR_on _ s hc]; exact cancel rfl hc
  case trngSetClient c =>
    split
    · exact client c rfl (by assumption)
    · exact refuses _
  case trngIsEnabledClock => exact emits _ _
  case trngEnableClock => exact backends _
  case trngDisableClock => exact backends _
  case irqEnter =>
    split
    · exact enter rfl (by assumption)
    · exact refuses _
    · exact refuses _
  case seqNext =>
    split
    · rename_i hp
      unfold pullWord; split
      · exact emits _ _
      · rename_i hq
        cases hc : rngClockOn s
        · rw [regRead_off _ s hc]; exact faults _
        · rw [regRead_sr_on s hc, andThen_done, drdy_of_read]
          split
          · rename_i hd
            rw [regRead_dr_on s hc, andThen_done]; exact pull rfl hp hq hd
          · rename_i hd
            exact exhaust rfl hp hq (by simpa using hd)
    · exact refuses _
    · exact refuses _
  case clientReturn r =>
    split
    · exact more rfl (by assumption)
    · rename_i hp
      cases hc : rngClockOn s
      · rw [modifyCR_off _ s hc]; exact faults _
      · rw [modifyCR_on _ s hc]; exact done rfl hp hc
    · exact refuses _
    · exact refuses _
  case hwDataReady w => exact load w rfl
  case hwSeedError => exact seed rfl
  case hwClockError => exact clock rfl
  case hwSeedCurrent b => exact seedNow b rfl
  case hwClockCurrent b => exact clockNow b rfl
  case envSetSysfreq f => exact backends _
  case envSetApb1Presc p => exact backends _
  case envSetApb2Presc p => exact backends _
  case envSetTimpre b => exact backends _

/-- The inversion of the thread's own step: TRNG_CANCEL's second write, a micro-step, or nothing. -/
theorem threadStep_cases (P : State → Prop) (s : State) (still : P s)
    (faults : ∀ r, P (raiseFault (.rngClockGated r) s))
    (cancel : s.cancelStep2 = true → rngClockOn s = true →
      P (emit .trngCancel .ok
        { s with cr := crAfterWrite (putBit (s.cr &&& crMask) ieBit false), cancelStep2 := false }))
    (test : s.cancelStep2 = false → inHandler s = true → ∀ label, P (goTo label s))
    (latch : s.cancelStep2 = false → inHandler s = true → ∀ label, P (goTo label { s with hsr := s.sr &&& srMask }))
    (clearSeed : s.cancelStep2 = false → s.phase = .running .h3 → rngClockOn s = true →
      P (goTo .h4 { s with sr := srAfterWrite s.sr (putBit s.hsr seisBit false) }))
    (discard : s.cancelStep2 = false → s.phase = .running .h4 → rngClockOn s = true → P (goTo .h5 (afterDrRead s)))
    (off : s.cancelStep2 = false → s.phase = .running .h5 → rngClockOn s = true →
      P (goTo .h6 { s with cr := crAfterWrite (putBit (s.cr &&& crMask) rngenBit false) }))
    (on : s.cancelStep2 = false → s.phase = .running .h6 → rngClockOn s = true →
      P (returnHandler { s with cr := crAfterWrite (putBit (s.cr &&& crMask) rngenBit true) }))
    (hook : s.cancelStep2 = false → s.phase = .running .h8 → P (goTo .h9 (rngReconfigure s)))
    (clearClock : s.cancelStep2 = false → s.phase = .running .h10 → rngClockOn s = true →
      P (returnHandler { s with sr := srAfterWrite s.sr (putBit s.hsr ceisBit false) }))
    (noClient : s.cancelStep2 = false → s.phase = .running .h11 → s.client = none → P (returnHandler s))
    (invoke : s.cancelStep2 = false → s.phase = .running .h11 → ∀ c, s.client = some c →
      P { logEvent (.clientInvoked c) s with seq := .fresh, phase := .clientActive }) :
    P (threadStep s) := by
  by_cases hc : s.cancelStep2 = true
  · rw [threadStep_cancel s hc]
    cases hk : rngClockOn s
    · rw [cancelSecondWrite_off s hk]; exact faults _
    · rw [cancelSecondWrite_on s hk]; exact cancel hc hk
  · have hc : s.cancelStep2 = false := by simpa using hc
    cases hp : s.phase with
    | idle => rw [threadStep_free s (by simp [threadBusy, hc, inHandler, hp])]; exact still
    | clientActive => rw [threadStep_free s (by simp [threadBusy, hc, inHandler, hp])]; exact still
    | running label =>
      have hr : inHandler s = true := by simp [inHandler, hp]
      rw [threadStep_running s label hc hp]
      by_cases h8 : label = .h8
      · subst h8; rw [handlerStep, microH8_eq]; exact hook hc hp
      · by_cases h11 : label = .h11
        · subst h11; rw [handlerStep, microH11]
          split
          · exact noClient hc hp (by assumption)
          · exact invoke hc hp _ (by assumption)
        · cases hk : rngClockOn s
          · obtain ⟨r, hr⟩ := handlerStep_off label s hk h8 h11
            rw [hr]; exact faults r
          · cases label with
            | h1 => rw [handlerStep, microH1_on s hk]; exact test hc hr _
            | h2 => rw [handlerStep, microH2_on s hk]; exact latch hc hr _
            | h3 => rw [handlerStep, microH3_on s hk]; exact clearSeed hc hp hk
            | h4 => rw [handlerStep, microH4_on s hk]; exact discard hc hp hk
            | h5 => rw [handlerStep, microH5_on s hk]; exact off hc hp hk
            | h6 => rw [handlerStep, microH6_on s hk]; exact on hc hp hk
            | h7 => rw [handlerStep, microH7_on s hk]; exact test hc hr _
            | h8 => exact absurd rfl h8
            | h9 => rw [handlerStep, microH9_on s hk]; exact latch hc hr _
            | h10 => rw [handlerStep, microH10_on s hk]; exact clearClock hc hp hk
            | h11 => exact absurd rfl h11

end Sys2Proof.Machine
end

