-- ==== Sys2Proof/Tests/Slice0.lean ====
section
/-! SUPPORT. The model's own tests: ill-formed terms, words written out from 30_encoding.md, one-step results taken from
95_test_vectors.md, and for each statement with hypotheses a concrete state and operands that meet them. -/

namespace Sys2Proof.Tests

open Sys2Proof Sys2Proof.Machine Sys2Proof.Safety

/-! ## Helpers -/

/-- Every clock line on, 16 MHz, APB1 divided by 4, APB2 by 2, no timer doubling. -/
def clocks : Backend where
  clkEn := ⟨#[true, true, true, true, true, true, true, true, true, true, true, true,
    true, true, true, true, true, true, true, true, true, true, true, true], rfl⟩
  rtcSrc := .other
  sysFreq := 16000000
  apb1Presc := .by4
  apb2Presc := .by2
  timpre := false

/-- A clean launch with those clocks. -/
def launch : State := { State.reset with backend := clocks }

/-- A clean launch with the RNG clock gated. -/
def gated : State := { launch with backend := setLine clocks (.ahb2 .rng) false }

/-- The driver armed, client 1 registered. -/
def armed : State := { launch with cr := 0x0C, client := some 1 }

/-- The handler about to take a micro-step, with a given SR. -/
def inStep (label : HandlerStep) (sr : Word) : State := { armed with phase := .running label, sr := sr }

/-- The client active on a fresh sequence, with a given SR and DR loaded. -/
def active (sr dr : Word) : State :=
  { armed with phase := .clientActive, sr := sr, dr := dr, drLoaded := true, ev := [.clientInvoked 1] }

/-- Between TRNG_CANCEL's writes. -/
def cancelling : State := { launch with cr := 0x08, cancelStep2 := true }

/-- A system frequency, an APB1 prescaler and the timer flag. -/
def clocked (f : Word) (p : Prescaler) (t : Bool) : State :=
  { launch with backend := { clocks with sysFreq := f, apb1Presc := p, timpre := t } }

/-- The next state of an outcome. -/
def nextOf (o : Host.Outcome State Fault Refusal) : Option State :=
  match o with
  | .next t => some t
  | .fault _ => none
  | .refused _ => none

/-- A field of the state after an instruction. -/
def after {α : Type} (i : Instr) (s : State) (field : State → α) : Option α := (nextOf (exec i s)).map field

/-- The results in `out`, without their mnemonics. -/
def results (s : State) : List Result := s.out.map Output.result

/-! ## Ill-formed terms -/

theorem test_wellFormed_refuses :
    (Instr.clkEnable (.ahb2 .otgfs)).wellFormed = false ∧ (Instr.regGpioHandle 8).wellFormed = false ∧
    (Instr.regPeriphHandle 16).wellFormed = false ∧ (Instr.trngSetClient 0).wellFormed = false ∧
    (Instr.trngSetClient 256).wellFormed = false := by decide

/-! ## Words written out from R84, R87 to R90 and R94 -/

theorem test_decode_clock_handle :
    decode 0b000000010010000000000000000000000000000000000000 = .ok (.clkIsEnabled (.ahb2 .rng)) ∧
    decode 0x02A000000000 = .ok (.clkEnable .rtc) ∧ decode 0x036600000000 = .ok (.clkDisable (.apb1 .dac)) ∧
    decode 0x046000000000 = .ok (.clkGetFrequency (.apb1 .tim2)) ∧
    decode 0x052000000000 = .ok (.clkConfigure (.ahb2 .rng)) := by decide

theorem test_decode_registries :
    decode 0b000100000000011100000000000000000000000000000000 = .ok (.regGpioHandle 7) ∧
    decode 0x110C00000000 = .ok (.regPeriphHandle 12) := by decide

theorem test_decode_driver :
    decode 0b001000000000000000000000000000000000000000000000 = .ok .trngGet ∧
    decode 0x210000000000 = .ok .trngCancel ∧ decode 0x220100000000 = .ok (.trngSetClient 1) ∧
    decode 0x230000000000 = .ok .trngIsEnabledClock ∧ decode 0x240000000000 = .ok .trngEnableClock ∧
    decode 0x250000000000 = .ok .trngDisableClock := by decide

theorem test_decode_interrupt :
    decode 0b010000000000000000000000000000000000000000000000 = .ok .irqEnter ∧
    decode 0x410000000000 = .ok .seqNext ∧ decode 0x420000000000 = .ok (.clientReturn .more) ∧
    decode 0x420100000000 = .ok (.clientReturn .done) := by decide

theorem test_decode_hardware :
    decode 0b100000000000000011011110101011011011111011101111 = .ok (.hwDataReady 0xDEADBEEF) ∧
    decode 0x810000000000 = .ok .hwSeedError ∧ decode 0x820000000000 = .ok .hwClockError ∧
    decode 0x830100000000 = .ok (.hwSeedCurrent true) ∧ decode 0x840000000000 = .ok (.hwClockCurrent false) := by decide

theorem test_decode_environment :
    decode 0b100100000000000000000000111101000010010000000000 = .ok (.envSetSysfreq 16000000) ∧
    decode 0x910400000000 = .ok (.envSetApb1Presc .by4) ∧ decode 0x920200000000 = .ok (.envSetApb2Presc .by2) ∧
    decode 0x930100000000 = .ok (.envSetTimpre true) := by decide

/-- The words of an identity in every bus family (R84). -/
theorem test_decode_identities :
    decode 0x010100000000 = .ok (.clkIsEnabled (.ahb1 .dma2)) ∧ decode 0x010900000000 = .ok (.clkIsEnabled (.ahb1 .gpioh)) ∧
    decode 0x014000000000 = .ok (.clkIsEnabled (.ahb3 .fmc)) ∧ decode 0x018200000000 = .ok (.clkIsEnabled (.apb2 .syscfg)) ∧
    decode 0x01C000000000 = .ok (.clkIsEnabled .pwr) := by decide

/-- Vectors D-1 to D-7: the opcode check precedes the unused fields. -/
theorem test_decode_refuses_opcode_and_fields :
    decode 0x000000000000 = .error .reservedOpcode ∧ decode 0xFF0000000000 = .error .reservedOpcode ∧
    decode 0x060000000000 = .error .reservedOpcode ∧ decode 0xFF0100000000 = .error .reservedOpcode ∧
    decode 0x200100000000 = .error .nonzeroField ∧ decode 0x012000000001 = .error .nonzeroField ∧
    decode 0x8001DEADBEEF = .error .nonzeroField := by decide

/-- Vectors D-8 to D-12. -/
theorem test_decode_refuses_identities :
    decode 0x010A00000000 = .error .reservedIdentity ∧ decode 0x01A100000000 = .error .reservedIdentity ∧
    decode 0x01E000000000 = .error .reservedIdentity ∧ decode 0x012100000000 = .error .noHandle ∧
    decode 0x052100000000 = .error .noHandle := by decide

/-- Vectors D-13, Q-3, Q-10, T-11, E-11 to E-13, and the last operands that are in range. -/
theorem test_decode_operand_ranges :
    decode 0x420200000000 = .error .operandRange ∧ decode 0x100800000000 = .error .operandRange ∧
    decode 0x111000000000 = .error .operandRange ∧ decode 0x220000000000 = .error .operandRange ∧
    decode 0x910300000000 = .error .operandRange ∧ decode 0x910000000000 = .error .operandRange ∧
    decode 0x930200000000 = .error .operandRange ∧ decode 0x110F00000000 = .ok (.regPeriphHandle 15) ∧
    decode 0x22FF00000000 = .ok (.trngSetClient 255) ∧ decode 0x921000000000 = .ok (.envSetApb2Presc .by16) := by decide

/-- The host's table words. -/
theorem test_decodeTableWord :
    decodeTableWord 48 0x200000000000 = some .trngGet ∧ decodeTableWord 48 0x220000000000 = none := by decide

/-! ## One step of each operation (95_test_vectors.md) -/

/-- G-1. -/
theorem test_clkIsEnabled : after (.clkIsEnabled (.apb1 .dac)) launch results = some [.bool true] := by decide

/-- G-2. -/
theorem test_clkEnable_rtc :
    after (.clkEnable .rtc) { launch with backend := setLine clocks .rtc false }
      (fun t => (lineOn t.backend .rtc, t.backend.rtcSrc)) = some (true, .lsi) := by decide

/-- G-5: every other line is unchanged. -/
theorem test_clkEnable_gpioa :
    after (.clkEnable (.ahb1 .gpioa)) { launch with backend := setLine clocks (.ahb1 .gpioa) false } State.backend =
      some clocks := by decide

/-- G-3: the source is left. -/
theorem test_clkDisable_rtc :
    after (.clkDisable .rtc) { launch with backend := { clocks with rtcSrc := .lsi } }
      (fun t => (lineOn t.backend .rtc, t.backend.rtcSrc)) = some (false, .lsi) := by decide

/-- G-4. -/
theorem test_clkDisable_twice :
    after (.clkDisable (.apb2 .syscfg)) { launch with backend := setLine clocks (.apb2 .syscfg) false } State.backend =
      some (setLine clocks (.apb2 .syscfg) false) := by decide

/-- F-13, F-7 and F-20: the timer floors first. -/
theorem test_clkGetFrequency :
    after (.clkGetFrequency (.apb1 .tim2)) (clocked 7 .by4 false) results = some [.frequency 2] ∧
    after (.clkGetFrequency (.apb1 .spi3)) (clocked 180000000 .by16 false) results = some [.frequency 11250000] ∧
    after (.clkGetFrequency (.apb1 .tim2)) (clocked 4294967295 .by4 false) results = some [.frequency 2147483646] := by
  decide

/-- F-24, P6: the fault is recorded with no output, and the next step stops. -/
theorem test_clkGetFrequency_pwr :
    after (.clkGetFrequency .pwr) launch (fun t => (t.faults, results t)) = some ([.notImplemented .pwr], []) ∧
    faultValue (.notImplemented .pwr) = 0xC0 := by decide

/-- K-1. -/
theorem test_clkConfigure :
    after (.clkConfigure (.ahb2 .rng)) launch (fun t => (t.refused, t.ev)) = some (some .internalOnly, []) := by decide

/-- Q-2 and Q-3. -/
theorem test_regGpioHandle :
    after (.regGpioHandle 7) launch results = some [.identity 0x09] ∧
    after (.regGpioHandle 8) launch State.refused = some (some .operandRange) := by decide

/-- Q-5 and Q-9. -/
theorem test_regPeriphHandle :
    after (.regPeriphHandle 5) launch results = some [.identity 0x40] ∧
    after (.regPeriphHandle 15) launch results = some [.identity 0x62] := by decide

/-- T-3. -/
theorem test_trngGet :
    after .trngGet { launch with cr := 0x04 } (fun t => (t.cr, results t)) = some (0x0C, [.ok]) := by decide

/-- G-7. -/
theorem test_trngGet_gated :
    after .trngGet { gated with cr := 0x0C } (fun t => (t.cr, t.faults, results t)) =
      some (0x0C, [.rngClockGated .cr], []) := by decide

/-- T-7: the first write, then the second. -/
theorem test_trngCancel :
    after .trngCancel { launch with cr := 0x2C } (fun t => (t.cr, t.cancelStep2, results t)) = some (0x28, true, []) ∧
    ((threadStep { cancelling with cr := 0x28 }).cr, results (threadStep { cancelling with cr := 0x28 })) =
      (0x20, [.ok]) := by decide

/-- T-13. -/
theorem test_trngCancel_gated :
    after .trngCancel { gated with cr := 0x0C } (fun t => (t.cr, t.cancelStep2, t.faults)) =
      some (0x0C, false, [.rngClockGated .cr]) := by decide

/-- T-10. -/
theorem test_trngSetClient :
    after (.trngSetClient 4) { launch with client := some 3 } (fun t => (t.client, t.ev, results t)) =
      some (some 4, [], []) := by decide

/-- G-8. -/
theorem test_trngIsEnabledClock :
    after .trngIsEnabledClock gated (fun t => (results t, t.faults)) = some ([.bool false], []) := by decide

/-- T-14. -/
theorem test_trngEnableClock : after .trngEnableClock gated State.backend = some clocks := by decide

/-- G-7. -/
theorem test_trngDisableClock :
    after .trngDisableClock { launch with cr := 0x0C } (fun t => (rngClockOn t, t.cr)) = some (false, 0x0C) := by decide

/-- P5. -/
theorem test_irqEnter : after .irqEnter armed State.phase = some (.running .h1) := by decide

/-- H-14. -/
theorem test_irqEnter_reentry :
    after .irqEnter (active 0 0) (fun t => (t.phase, t.refused)) = some (.clientActive, some .reentry) := by decide

/-- S-1. -/
theorem test_seqNext :
    after .seqNext (active 0x01 0xDEADBEEF) (fun t => (results t, t.sr, t.seq)) =
      some ([.word (some 0xDEADBEEF)], 0, .fresh) := by decide

/-- S-6 and S-7. -/
theorem test_seqNext_gated :
    after .seqNext { active 0x00 0 with backend := gated.backend, seq := .exhausted } (fun t => (results t, t.faults)) =
      some ([.word none], []) ∧
    after .seqNext { active 0x01 0 with backend := gated.backend } (fun t => (results t, t.faults)) =
      some ([], [.rngClockGated .sr]) := by decide

/-- S-8. -/
theorem test_clientReturn_continue :
    after (.clientReturn .more) (active 0 0) (fun t => (t.cr, t.phase, t.ev)) =
      some (0x0C, .idle, [.clientInvoked 1, .clientReturned .more]) := by decide

/-- S-10. -/
theorem test_clientReturn_done :
    after (.clientReturn .done) { active 0 0 with cr := 0x2C } (fun t => (t.cr, t.phase)) = some (0x20, .idle) := by decide

/-- E-1 and E-6: admitted with RNGEN 0 and the clock gated. -/
theorem test_hwDataReady :
    after (.hwDataReady 0x12345678) launch (fun t => (t.sr, t.dr, t.drLoaded)) = some (0x01, 0x12345678, true) ∧
    after (.hwDataReady 1) gated State.sr = some 0x01 := by decide

/-- E-2. -/
theorem test_hwSeedError : after .hwSeedError { launch with sr := 0x01 } State.sr = some 0x41 := by decide

/-- E-3. -/
theorem test_hwClockError : after .hwClockError launch State.sr = some 0x20 := by decide

/-- E-4. -/
theorem test_hwSeedCurrent : after (.hwSeedCurrent true) launch State.sr = some 0x04 := by decide

/-- E-5. -/
theorem test_hwClockCurrent : after (.hwClockCurrent false) { launch with sr := 0x02 } State.sr = some 0x00 := by decide

/-- E-7. -/
theorem test_envSetSysfreq :
    after (.envSetSysfreq 84000000) launch (fun t => t.backend.sysFreq) = some 0x0501BD00 := by decide

/-- E-8: APB2 is left. -/
theorem test_envSetApb1Presc :
    after (.envSetApb1Presc .by16) launch (fun t => (t.backend.apb1Presc, t.backend.apb2Presc)) = some (.by16, .by2) := by
  decide

/-- E-9: APB1 is left. -/
theorem test_envSetApb2Presc :
    after (.envSetApb2Presc .by8) launch (fun t => (t.backend.apb1Presc, t.backend.apb2Presc)) = some (.by4, .by8) := by
  decide

/-- E-10. -/
theorem test_envSetTimpre : after (.envSetTimpre true) launch (fun t => t.backend.timpre) = some true := by decide

/-- The micro-steps of L1-6. -/
theorem test_seed_branch :
    (threadStep (inStep .h1 0x41)).phase = .running .h2 ∧ (threadStep (inStep .h2 0x41)).hsr = 0x41 ∧
    (threadStep { inStep .h3 0x41 with hsr := 0x41 }).sr = 0x01 ∧
    (threadStep { inStep .h4 0x01 with dr := 0x11112222, drLoaded := true }).sr = 0x00 ∧
    (threadStep (inStep .h5 0)).cr = 0x08 ∧ (threadStep { inStep .h6 0 with cr := 0x08 }).cr = 0x0C ∧
    (threadStep (inStep .h6 0)).phase = .idle := by decide

/-- The micro-steps of L1-7. -/
theorem test_clock_branch :
    (threadStep (inStep .h1 0x20)).phase = .running .h7 ∧ (threadStep (inStep .h7 0x20)).phase = .running .h8 ∧
    (threadStep (inStep .h8 0x20)).ev = [.rngReconfigure] ∧ (threadStep (inStep .h9 0x20)).hsr = 0x20 ∧
    (threadStep { inStep .h10 0x20 with hsr := 0x20 }).sr = 0x00 ∧ (threadStep (inStep .h10 0x20)).phase = .idle := by decide

/-- H-6 and H-7: with no client the handler returns; a spurious entry still invokes the client. -/
theorem test_data_branch :
    (threadStep { inStep .h11 0x01 with client := none }).phase = .idle ∧
    (threadStep { inStep .h11 0x00 with client := some 5 }).ev = [.clientInvoked 5] ∧
    (threadStep (inStep .h11 0x00)).phase = .clientActive := by decide

/-- H-8 and H-9: the write clears the flag that arrived after the read. -/
theorem test_lost_flags :
    (threadStep { inStep .h3 0x60 with hsr := 0x40 }).sr = 0x00 ∧
    (threadStep { inStep .h10 0x60 with hsr := 0x20 }).sr = 0x00 := by decide

/-- H-13. -/
theorem test_handler_gated :
    (threadStep { inStep .h1 0 with backend := gated.backend }).faults = [.rngClockGated .sr] ∧
    (threadStep { inStep .h1 0 with backend := gated.backend }).phase = .running .h1 := by decide

/-- An effect of the RNG reconfiguration, where one is listed, is applied once (41_clock_handle.md R124). -/
theorem test_reconfigEffect :
    (threadStep { inStep .h8 0x20 with reconfigEffects := [gated.backend] }).backend = gated.backend ∧
    (threadStep { inStep .h8 0x20 with reconfigEffects := [gated.backend] }).reconfigEffects = [] := by decide

/-- The first instruction after reset. -/
theorem test_withFetchWord :
    (nextOf (step (State.reset.withFetchWord 48 0x220300000000))).map State.client = some (some 3) := by decide

/-! ## Witnesses: states and operands that meet the hypotheses of each statement -/

theorem witness_DecodeOfEncodeIsTheInstruction :
    (Instr.regGpioHandle 7).wellFormed = true ∧ (Instr.regPeriphHandle 15).wellFormed = true ∧
    (Instr.trngSetClient 1).wellFormed = true ∧ (Instr.trngSetClient 255).wellFormed = true ∧
    (Instr.clkConfigure .pwr).wellFormed = true := by decide

theorem witness_EncodeOfDecodeIsTheWord :
    decode 0x22FF00000000 = .ok (.trngSetClient 255) ∧ encode (.trngSetClient 255) = 0x22FF00000000 := by decide

/-- The clauses on the opcode and the unused fields, at 0x00, 0x06 and 0xFF, and with one field non-zero. -/
theorem witness_DecodeChecksInOrder_fields :
    (∀ o ∈ [0x00, 0x06, 0xFF], ∀ f ∈ formatOpcodes, o ∉ f.2) ∧ packCommand 0x06 0 0 = 0x060000000000 ∧
    (∃ f ∈ formatOpcodes, (0x20 : Byte).toNat ∈ f.2 ∧ (f.1 = 'N' ∨ f.1 = 'W') ∧ (0x01 : Byte) ≠ 0) ∧
    packCommand 0x20 0x01 0 = 0x200100000000 ∧
    (∃ f ∈ formatOpcodes, (0x01 : Byte).toNat ∈ f.2 ∧ f.1 ≠ 'W' ∧ (0x00000001 : Word) ≠ 0) ∧
    packCommand 0x01 0x20 1 = 0x012000000001 := by decide

/-- The clauses on the operands, on both sides of each bound. -/
theorem witness_DecodeChecksInOrder_operands :
    decode (packCommand 0x01 0x0A 0) = .error .reservedIdentity ∧ decode (packCommand 0x05 0x21 0) = .error .noHandle ∧
    decode (packCommand 0x05 0x20 0) = .ok (.clkConfigure (.ahb2 .rng)) ∧
    decode (packCommand 0x10 7 0) = .ok (.regGpioHandle 7) ∧ decode (packCommand 0x10 8 0) = .error .operandRange ∧
    decode (packCommand 0x11 15 0) = .ok (.regPeriphHandle 15) ∧ decode (packCommand 0x11 16 0) = .error .operandRange ∧
    decode (packCommand 0x22 1 0) = .ok (.trngSetClient 1) ∧ decode (packCommand 0x22 0 0) = .error .operandRange ∧
    decode (packCommand 0x93 1 0) = .ok (.envSetTimpre true) ∧ decode (packCommand 0x93 2 0) = .error .operandRange ∧
    decode (packCommand 0x91 16 0) = .ok (.envSetApb1Presc .by16) ∧
    decode (packCommand 0x91 17 0) = .error .operandRange ∧ decode (packCommand 0x20 0 0) = .ok .trngGet ∧
    decode (packCommand 0x80 0 0xFFFFFFFF) = .ok (.hwDataReady 0xFFFFFFFF) := by decide

theorem witness_HandledIsTheImageOfTheRegistries :
    (ClockId.ahb2 .otgfs).hasHandle = false ∧ decode (packCommand 0x05 (ClockId.ahb2 .otgfs).code 0) = .error .noHandle := by
  decide

theorem witness_OperandsOutsideTheEncodingAreRefused :
    (ClockId.ahb2 .otgfs).hasHandle = false ∧
    after (.clkConfigure (.ahb2 .otgfs)) launch State.refused = some (some .noHandle) ∧
    after (.regGpioHandle 8) launch State.refused = some (some .operandRange) ∧
    after (.regPeriphHandle 16) launch State.refused = some (some .operandRange) ∧
    after (.trngSetClient 0) launch State.refused = some (some .operandRange) ∧
    after (.trngSetClient 256) launch State.refused = some (some .operandRange) := by decide

/-- A word issued at this boundary, one issued in program order, and one placed by `withFetchWord`. -/
theorem witness_StepRunsTheDecodedInstruction :
    launch.faults = [] ∧ decode (encode .irqEnter) = .ok .irqEnter ∧ admitsNow .irqEnter launch = true ∧
    threadBusy launch = false ∧ tableCommand 48 0x400000000000 = encode .irqEnter ∧
    (scheduleWord (encode .irqEnter) launch).queue = [.atOnce (encode .irqEnter)] := by decide

theorem witness_StepRefusesAWordThatDoesNotDecode :
    launch.faults = [] ∧ decode 0xFF0000000000 = .error .reservedOpcode ∧ threadBusy launch = false ∧
    (scheduleWord 0xFF0000000000 launch).queue = [.atOnce 0xFF0000000000] := by decide

/-- In phase Running and between TRNG_CANCEL's writes. -/
theorem witness_HardwareEventsTakePlaceAtAnyBoundary :
    agentOf .hwSeedError = .hardware ∧ cancelling.faults = [] ∧ (inStep .h3 0x40).faults = [] ∧
    (nextOf (step (scheduleWord (encode .hwSeedError) cancelling))).map State.sr = some 0x40 ∧
    (nextOf (step (scheduleWord (encode .hwSeedError) (inStep .h3 0)))).map State.sr = some 0x40 := by decide

/-- Between the writes of a TRNG_CANCEL that the client issued, IRQ_ENTER is refused at once and the second write is still
outstanding (60_exceptions.md R262, 44_trng_interrupt.md R209). -/
theorem test_irqEnter_in_a_client_cancel :
    (nextOf (step (scheduleWord (encode .irqEnter) { active 0 0 with cr := 0x08, cancelStep2 := true }))).map
      (fun t => (t.refused, t.phase, t.cr, t.cancelStep2)) = some (some .reentry, .clientActive, 0x08, true) := by decide

/-- From normal context IRQ_ENTER waits; a client's or an environment's word waits too; from ClientActive IRQ_ENTER does not. -/
theorem witness_NothingElseSplitsTrngCancel :
    cancelling.faults = [] ∧ cancelling.cancelStep2 = true ∧ decode (encode .irqEnter) = .ok .irqEnter ∧
    agentOf .irqEnter ≠ .hardware ∧ cancelling.phase = .idle ∧ agentOf .seqNext ≠ .hardware ∧
    agentOf .seqNext ≠ .kernel ∧ agentOf (.envSetTimpre true) = .environment ∧
    { active 0 0 with cancelStep2 := true }.cancelStep2 = true ∧ { active 0 0 with cancelStep2 := true }.phase ≠ .idle ∧
    { active 0 0 with cancelStep2 := true }.faults = [] ∧
    (nextOf (step { active 0 0 with cr := 0x08, cancelStep2 := true, queue := [.inOrder (encode .irqEnter)] })).map
      State.cr = some 0 ∧
    (nextOf (step (scheduleWord (encode .irqEnter) cancelling))).map (fun t => (t.phase, t.cr)) =
      some (.idle, 0) := by decide

theorem witness_NoSoftwareOperationInPhaseRunning :
    (inStep .h5 0).faults = [] ∧ (inStep .h5 0).cancelStep2 = false ∧ (inStep .h5 0).phase = .running .h5 ∧
    decode (encode .trngGet) = .ok .trngGet ∧ agentOf .trngGet = .software ∧
    (nextOf (step (scheduleWord (encode .trngGet) (inStep .h5 0)))).map State.cr = some 0x08 := by decide

theorem witness_NoStepAfterAFault :
    { launch with faults := [.rngClockGated .dr] }.faults = .rngClockGated .dr :: [] := by decide

theorem witness_ResetLeavesTheStatedValues : (ClockId.ahb2 .rng).hasHandle = true := by decide

/-- A state with the client active and DRDY set meets the invariant, and takes a step. -/
theorem witness_EveryStepKeepsTheInvariant :
    StateInv (scheduleWord (encode .seqNext) (active 0x01 7)) ∧
    ∃ t, step (scheduleWord (encode .seqNext) (active 0x01 7)) = .next t :=
  ⟨⟨by decide, by decide, by decide, fun c h => by cases h; decide, fun _ => rfl, fun _ => by decide, by decide, by decide⟩,
    _, rfl⟩

/-- H11 opens an invocation, CLIENT_RETURN ends one: both from a state that meets the invariant. -/
theorem witness_EveryStepKeepsTheInvocationLogged :
    (InvocationLogged (inStep .h11 0) ∧ ∃ t, step (inStep .h11 0) = .next t ∧ t.phase = .clientActive) ∧
    (InvocationLogged (scheduleWord (encode (.clientReturn .more)) (active 0 0)) ∧
      ∃ t, step (scheduleWord (encode (.clientReturn .more)) (active 0 0)) = .next t ∧ t.phase = .idle) :=
  ⟨⟨⟨(by intro h; cases h), (by rintro ⟨c, h⟩; cases h)⟩, _, rfl, rfl⟩, ⟨fun _ => ⟨1, rfl⟩, fun _ => rfl⟩, _, rfl, rfl⟩

theorem witness_NoStepWritesCed :
    ∃ t, step (scheduleWord (encode .trngGet) { launch with cr := 0x20 }) = .next t ∧ cedSet t = true :=
  ⟨_, rfl, by decide⟩

theorem witness_FaultsAndRefusalAreSticky :
    (∃ t, exec (.clkGetFrequency .rtc) { launch with refused := some .reentry } = .next t ∧ t.refused = some .reentry) ∧
    (∃ t, exec .irqEnter { launch with faults := [.rngClockGated .cr] } = .next t ∧ t.faults = [.rngClockGated .cr]) ∧
    ∃ t, step (scheduleWord 0 { launch with refused := some .reentry }) = .next t ∧ t.refused = some .reentry :=
  ⟨⟨_, rfl, rfl⟩, ⟨_, rfl, by decide⟩, ⟨_, rfl, by decide⟩⟩

theorem witness_TracesOnlyGrow :
    ∃ t, step (scheduleWord (encode .seqNext) (active 0x01 7)) = .next t ∧ t.out = [⟨.seqNext, .word (some 7)⟩] :=
  ⟨_, rfl, by decide⟩

theorem witness_OnlyTheDriverAndTheHandlerChangeCr :
    (∃ t, exec (.clientReturn .more) (active 0 0) = .next t) ∧ Instr.clientReturn .more ≠ .clientReturn .done ∧
    Instr.clientReturn .more ≠ .trngGet ∧ Instr.clientReturn .more ≠ .trngCancel ∧
    (inStep .h4 1).cancelStep2 = false ∧ (inStep .h4 1).phase ≠ .running .h5 ∧ (inStep .h4 1).phase ≠ .running .h6 :=
  ⟨⟨_, rfl⟩, by decide, by decide, by decide, by decide, by decide, by decide⟩

theorem witness_EachSrBitHasItsWriters :
    (∃ t, exec .hwSeedError launch = .next t ∧ t.sr = 0x40) ∧ Instr.hwSeedError ≠ .hwClockError ∧
    (∀ b, Instr.hwSeedError ≠ .hwSeedCurrent b) ∧ (∀ b, Instr.hwSeedError ≠ .hwClockCurrent b) ∧
    (∀ w, Instr.hwSeedError ≠ .hwDataReady w) ∧ (inStep .h4 1).phase ≠ .running .h3 ∧
    (inStep .h4 1).phase ≠ .running .h10 ∧ (inStep .h3 1).phase ≠ .running .h4 ∧ cancelling.cancelStep2 = true :=
  ⟨⟨_, rfl, by decide⟩, by decide, by decide, by decide, (by intro w h; cases h), by decide, by decide, by decide, rfl⟩

theorem witness_OnlySetClientWritesTheClient :
    ∃ t, exec (.trngSetClient 255) armed = .next t ∧ t.client = some 255 ∧ armed.client = some 1 :=
  ⟨_, rfl, by decide, rfl⟩

theorem witness_OnlyEnvironmentEventsWriteTheClockConfiguration :
    (∃ t, exec (.clkEnable .rtc) launch = .next t) ∧ agentOf (.clkEnable .rtc) ≠ .environment ∧
    (inStep .h8 0x20).reconfigEffects = [] ∧ (inStep .h5 0).phase ≠ .running .h8 :=
  ⟨⟨_, rfl⟩, by decide, rfl, by decide⟩

/-- The three clock statements: an identity with a handle, at either end of the codes. -/
theorem witness_clock_statements :
    (ClockId.ahb1 .dma1).hasHandle = true ∧ ClockId.pwr.hasHandle = true ∧ ClockId.rtc.hasHandle = true := by decide

/-- From Armed, from Disabled with CED set (T-5, T-7), and with a line already on. -/
theorem witness_RepeatedOperationsAreIdempotent :
    (∃ t u, exec .trngGet armed = .next t ∧ exec .trngGet t = .next u ∧ u.cr = 0x0C) ∧
    (({ launch with cr := 0x20 }.cr &&& ~~~crMask = 0 ∧ driverState { launch with cr := 0x20 } = .disabled) ∧
      ∃ t, exec .trngCancel { launch with cr := 0x20 } = .next t ∧ t.cr = 0x20) ∧
    (∃ t, exec (.clkEnable .rtc) launch = .next t) ∧ ∃ t, exec (.clkDisable .rtc) launch = .next t :=
  ⟨⟨_, _, rfl, rfl, by decide⟩, ⟨⟨by decide, by decide⟩, _, rfl, by decide⟩, ⟨_, rfl⟩, ⟨_, rfl⟩⟩

/-- Each clause: an AHB line, an APB1 line, an APB2 line, and the timer with the flag clear and set (F-12, F-11, F-10, F-1,
F-4, at the prescalers where the timer's clauses meet). -/
theorem witness_ClkGetFrequencyEmitsTheFrequency :
    ((ClockId.ahb3 .fmc).hasHandle = true ∧ (ClockId.ahb3 .fmc).family.toNat = 2) ∧
    ((ClockId.apb1 .usart3).family = 3 ∧ ClockId.apb1 .usart3 ≠ .apb1 .tim2) ∧ (ClockId.apb2 .usart1).family = 4 ∧
    after (.clkGetFrequency (.apb1 .tim2)) (clocked 16000000 .by2 false) results = some [.frequency 16000000] ∧
    after (.clkGetFrequency (.apb1 .tim2)) (clocked 16000000 .by4 false) results = some [.frequency 8000000] ∧
    after (.clkGetFrequency (.apb1 .tim2)) (clocked 16000000 .by4 true) results = some [.frequency 16000000] ∧
    after (.clkGetFrequency (.apb1 .tim2)) (clocked 16000000 .by8 true) results = some [.frequency 8000000] := by decide

theorem witness_RtcAndPwrHaveNoFrequency :
    (ClockId.pwr = .rtc ∨ ClockId.pwr = .pwr) ∧ (ClockId.rtc = .rtc ∨ ClockId.rtc = .pwr) ∧ launch.faults = [] := by decide

theorem witness_FrequencyIsAtMostTheSystemFrequency :
    frequencyOf (.apb1 .tim2) { clocks with sysFreq := 4294967295, timpre := true } = some 4294967295 := by decide

theorem witness_FrequencyTableForMultiplesOfSixteen : clocks.sysFreq.toNat = 16 * 1000000 ∧ Apb1.dac ≠ .tim2 := by decide

/-- F-25. -/
theorem witness_FrequencyIgnoresTheEnableBits :
    ∃ t, exec (.clkDisable (.apb1 .tim2)) launch = .next t ∧ frequencyOf (.apb1 .tim2) t.backend = some 8000000 :=
  ⟨_, rfl, by decide⟩

/-- The address past the block, with the RNG clock on. -/
theorem witness_TheRegisterBlockHasThreeAddresses :
    Config.rngBase + 12 ≠ Config.rngBase ∧ Config.rngBase + 12 ≠ Config.rngBase + 4 ∧
    Config.rngBase + 12 ≠ Config.rngBase + 8 := by
  refine ⟨?_, ?_, ?_⟩ <;> intro h <;> bv_omega

theorem witness_ClkConfigureIsInternal :
    (ClockId.ahb2 .rng).hasHandle = true ∧ ClockId.apb1 .dac ≠ .ahb2 .rng ∧ launch.reconfigEffects = [] ∧
    { launch with reconfigEffects := [clocks] }.reconfigEffects = clocks :: [] := by decide

theorem witness_RegistryLookupsEmitTheIdentity :
    7 < (8 : Byte).toNat ∧ 15 < (16 : Byte).toNat ∧
    ([0x02, 0x03, 0x04, 0x05, 0x06, 0x07, 0x08, 0x09] : List Byte)[7]? = some 0x09 ∧
    ([0x81, 0x65, 0x66, 0x00, 0x01, 0x40, 0x64, 0xC0, 0xA0, 0x82, 0x63, 0x60, 0x20, 0x80, 0x61, 0x62] : List Byte)[15]? =
      some 0x62 := by decide

/-- For the statements on the registers and for those on the driver's operations. -/
theorem witness_register_statements :
    lineOn launch.backend (.ahb2 .rng) = true ∧ lineOn gated.backend (.ahb2 .rng) = false ∧ gated.faults = [] := by decide

theorem witness_GatedRegisterAccessFaults :
    lineOn gated.backend (.ahb2 .rng) = false ∧ gated.faults = [] ∧
    { active 1 7 with backend := gated.backend }.phase = .clientActive ∧
    { active 1 7 with backend := gated.backend }.seq = .fresh ∧ HandlerStep.h1 ≠ .h8 ∧ HandlerStep.h1 ≠ .h11 ∧
    ClockId.ahb2 .otgfs ≠ .ahb2 .rng := by decide

theorem witness_InterruptLineFormula :
    irqLine (active 0x01 7) = true ∧ irqLine (active 0x20 7) = true ∧ irqLine (active 0x40 7) = true ∧
    irqLine (active 0x06 7) = false ∧ irqLine { launch with sr := 0x61 } = false ∧ launch.phase = .idle := by decide

/-- T-12. -/
theorem witness_TrngCancelRunsInTwoSteps :
    lineOn armed.backend (.ahb2 .rng) = true ∧ armed.faults = [] ∧ threadBusy armed = false ∧
    (nextOf (steps 3 { armed with
      queue := [.inOrder (encode .trngCancel), .atOnce (encode .hwSeedError), .thread] })).map
        (fun t => (t.cr, t.sr, results t)) = some (0x00, 0x40, [.ok]) := by decide

theorem witness_SetClientFillsTheSlot : 1 ≤ 1 ∧ 1 ≤ 255 ∧ 255 ≤ 255 := by decide

theorem witness_DriverStateTransitions :
    lineOn launch.backend (.ahb2 .rng) = true ∧ (active 0 0).phase = .clientActive ∧
    lineOn (active 0 0).backend (.ahb2 .rng) = true ∧ driverState cancelling = .irqOnly := by decide

theorem witness_HandlerMicroSteps :
    lineOn (inStep .h3 0x61).backend (.ahb2 .rng) = true ∧
    (handlerStep .h3 { inStep .h3 0x61 with hsr := 0x61 }).sr = 0x21 ∧
    (handlerStep .h10 { inStep .h10 0x21 with hsr := 0x21 }).sr = 0x01 := by decide

theorem witness_EnvironmentEventsWriteTheirField :
    (0 : Byte).toNat ∉ [1, 2, 4, 8, 16] ∧ (17 : Byte).toNat ∉ [1, 2, 4, 8, 16] := by decide

theorem witness_TrngCancelIsTwoWrites : agentOf .hwSeedError = .hardware ∧ agentOf (.hwDataReady 0) = .hardware := by decide

theorem witness_IrqEnterEntersTheHandler :
    launch.phase = .idle ∧ (active 0 0).phase ≠ .idle ∧ (inStep .h11 0).phase ≠ .idle := by decide

/-- H-1 with a word pending. -/
theorem witness_SeedErrorBranch :
    (inStep .h1 0x41).faults = [] ∧ (inStep .h1 0x41).queue = [] ∧ (inStep .h1 0x41).cancelStep2 = false ∧
    (inStep .h1 0x41).phase = .running .h1 ∧ lineOn (inStep .h1 0x41).backend (.ahb2 .rng) = true ∧
    seisSet (inStep .h1 0x41) = true := by decide

/-- L1-7, with no effect of the hook listed; and with one that leaves the clocks as they are. -/
theorem witness_ClockErrorBranch :
    (inStep .h1 0x20).faults = [] ∧ (inStep .h1 0x20).queue = [] ∧ (inStep .h1 0x20).cancelStep2 = false ∧
    (inStep .h1 0x20).phase = .running .h1 ∧ lineOn (inStep .h1 0x20).backend (.ahb2 .rng) = true ∧
    seisSet (inStep .h1 0x20) = false ∧ ceisSet (inStep .h1 0x20) = true ∧ (inStep .h1 0x20).reconfigEffects = [] ∧
    { inStep .h1 0x20 with reconfigEffects := [clocks] }.reconfigEffects = clocks :: [] ∧
    lineOn clocks (.ahb2 .rng) = true := by decide

/-- H-6 and H-7. -/
theorem witness_DataBranch :
    (inStep .h1 0x01).faults = [] ∧ (inStep .h1 0x01).queue = [] ∧ (inStep .h1 0x01).cancelStep2 = false ∧
    (inStep .h1 0x01).phase = .running .h1 ∧ lineOn (inStep .h1 0x01).backend (.ahb2 .rng) = true ∧
    seisSet (inStep .h1 0x01) = false ∧ ceisSet (inStep .h1 0x01) = false ∧
    (nextOf (steps 3 (inStep .h1 0x01))).map State.ev = some [.clientInvoked 1] ∧
    (nextOf (steps 3 { inStep .h1 0x01 with client := none })).map State.phase = some .idle := by decide

theorem witness_HandlerEndsWithinSixSteps :
    (inStep .h1 0x40).faults = [] ∧ (inStep .h1 0x40).queue = [] ∧ (inStep .h1 0x40).cancelStep2 = false ∧
    inHandler (inStep .h1 0x40) = true := by decide

theorem witness_ErrorBranchesAreSilent : HandlerStep.h10 ≠ .h11 ∧ (handlerStep .h8 (inStep .h8 0)).ev = [.rngReconfigure] := by
  decide

/-- H-8 from H2, H-9 from H9. -/
theorem witness_AnErrorBetweenReadAndWriteIsLost :
    ((inStep .h2 0x40).faults = [] ∧ (inStep .h2 0x40).cancelStep2 = false ∧
      lineOn (inStep .h2 0x40).backend (.ahb2 .rng) = true ∧ ceisSet (inStep .h2 0x40) = false) ∧
    (nextOf (steps 3 { inStep .h2 0x40 with queue := [.thread, .atOnce (encode .hwClockError), .thread] })).map State.sr =
      some 0x00 ∧
    ((inStep .h9 0x20).faults = [] ∧ (inStep .h9 0x20).cancelStep2 = false ∧
      lineOn (inStep .h9 0x20).backend (.ahb2 .rng) = true ∧ seisSet (inStep .h9 0x20) = false) ∧
    (nextOf (steps 3 { inStep .h9 0x20 with queue := [.thread, .atOnce (encode .hwSeedError), .thread] })).map State.sr =
      some 0x00 := by decide

theorem witness_SeqNextPullsAWord :
    ({ active 0 0 with seq := .exhausted }.phase = .clientActive ∧ { active 0 0 with seq := .exhausted }.seq = .exhausted) ∧
    ((active 0 0).phase = .clientActive ∧ (active 0 0).seq = .fresh ∧ lineOn (active 0 0).backend (.ahb2 .rng) = true ∧
      drdySet (active 0 0) = false) ∧
    ((active 1 7).phase = .clientActive ∧ (active 1 7).seq = .fresh ∧ lineOn (active 1 7).backend (.ahb2 .rng) = true ∧
      drdySet (active 1 7) = true) ∧ launch.phase ≠ .clientActive := by decide

theorem witness_DeliveredWordsComeFromDr :
    StateInv (active 0x01 7) ∧ ∃ t, exec .seqNext (active 0x01 7) = .next t ∧
      t.out = (active 0x01 7).out ++ [{ mnemonic := .seqNext, result := .word (some 7) }] :=
  ⟨⟨by decide, by decide, by decide, fun c h => by cases h; decide, fun _ => rfl, fun _ => by decide, by decide, by decide⟩,
    _, rfl, by decide⟩

theorem witness_ExhaustedSequencesStayExhausted :
    (∃ t, exec .seqNext { active 1 7 with seq := .exhausted } = .next t ∧ t.seq = .exhausted) ∧
    cancelling.cancelStep2 = true ∧ (inStep .h10 0).phase ≠ .running .h11 :=
  ⟨⟨_, rfl, rfl⟩, rfl, by decide⟩

theorem witness_ClientReturnEndsTheInvocation :
    (active 0 0).phase = .clientActive ∧ lineOn (active 0 0).backend (.ahb2 .rng) = true ∧ launch.phase ≠ .clientActive ∧
    { active 0 0 with backend := gated.backend }.faults = [] ∧
    lineOn { active 0 0 with backend := gated.backend }.backend (.ahb2 .rng) = false := by decide

/-- Two states that differ in both current bits and in the latch, each taking a step; and the two with a fault recorded. -/
theorem witness_CurrentBitsDecideNothing :
    SameButCurrentBits (inStep .h2 0x41) { inStep .h2 0x47 with hsr := 0x06 } ∧
    (∃ s', step (inStep .h2 0x41) = .next s') ∧
    SameButCurrentBits { inStep .h2 0x41 with faults := [.rngClockGated .cr] }
      { inStep .h2 0x47 with faults := [.rngClockGated .cr] } ∧
    step { inStep .h2 0x41 with faults := [.rngClockGated .cr] } = .fault (.rngClockGated .cr) :=
  ⟨by unfold SameButCurrentBits; decide, ⟨_, rfl⟩, by unfold SameButCurrentBits; decide, rfl⟩

end Sys2Proof.Tests
end

namespace Sys2Proof.Proofs

open Sys2Proof.Machine Sys2Proof.Safety

/-! ## The invariant of the state: which updates keep it -/

section Invariant

variable {s t : State} (h : StateInv s)
include h

theorem inv_emit (m : Emitter) (r : Result) : StateInv (emit m r s) := { h with }

theorem inv_logEvent (e : Event) : StateInv (logEvent e s) := { h with }

theorem inv_refuse (r : Reason) : StateInv (refuse r s) := { h with }

theorem inv_queue (q : List Slot) : StateInv { s with queue := q } := { h with }

theorem inv_backend (b : Backend) : StateInv { s with backend := b } := { h with }

theorem inv_seq (q : SeqState) : StateInv { s with seq := q } := { h with }

theorem inv_rngReconfigure : StateInv (rngReconfigure s) := by
  unfold rngReconfigure
  split
  · exact inv_logEvent h _
  · exact { h with }

theorem inv_raiseFault (hf : s.faults = []) (f : Fault) : StateInv (raiseFault f s) :=
  { h with oneFault := by simp [hf] }

theorem inv_setClient {c : Nat} (hc : clientInRange c = true) : StateInv { s with client := some c } :=
  { h with
    clientLegal := fun d hd => by cases hd; simpa [clientInRange] using hc
    activeHasClient := fun _ => Option.some_ne_none c }

theorem inv_crWrite (v : Word) : StateInv { s with cr := crAfterWrite v } :=
  { h with crReserved := and_mask_reserved v crMask }

theorem inv_srWrite (v : Word) : StateInv { s with sr := srAfterWrite s.sr v } :=
  { h with
    srReserved := srAfterWrite_reserved s.sr v h.srReserved
    drdyLoaded := fun hd => h.drdyLoaded (by
      rw [drdySet, getLsbD_srAfterWrite, Bool.and_eq_true] at hd; exact hd.1) }

/-- An event on a flag other than DRDY keeps the invariant. -/
theorem inv_setSrBit {k : Nat} (hk : srMask.getLsbD k = true) (hd : drdyBit ≠ k) (b : Bool) :
    StateInv (setSrBit k b s) :=
  { h with
    srReserved := putBit_reserved s.sr srMask k b hk h.srReserved
    drdyLoaded := fun he => h.drdyLoaded (by
      rwa [drdySet, setSrBit_sr, getLsbD_putBit_ne _ _ _ _ hd] at he) }

theorem inv_loadWord (w : Word) : StateInv (loadWord w s) :=
  { h with
    srReserved := putBit_reserved s.sr srMask drdyBit true (by decide) h.srReserved
    drdyLoaded := fun _ => rfl }

theorem inv_afterDrRead : StateInv (afterDrRead s) :=
  { h with
    srReserved := putBit_reserved s.sr srMask drdyBit false (by decide) h.srReserved
    drdyLoaded := fun hd => by
      rw [drdySet, afterDrRead_sr, getLsbD_putBit_self _ _ _ (by decide)] at hd; cases hd }

theorem inv_latch : StateInv { s with hsr := s.sr &&& srMask } :=
  { h with hsrReserved := and_mask_reserved s.sr srMask }

theorem inv_goTo (hc : s.cancelStep2 = false) (label : HandlerStep) : StateInv (goTo label s) :=
  { h with
    activeHasClient := fun hp => nomatch hp
    cancelOutsideHandler := fun hc' => by simp [hc] at hc' }

theorem inv_returnHandler : StateInv (returnHandler s) :=
  { h with
    activeHasClient := fun hp => nomatch hp
    cancelOutsideHandler := fun _ => rfl }

theorem inv_clientActive (hc : s.client ≠ none) : StateInv { s with phase := .clientActive } :=
  { h with
    activeHasClient := fun _ => hc
    cancelOutsideHandler := fun _ => rfl }

theorem inv_cancelStep2_on (hp : inHandler s = false) : StateInv { s with cancelStep2 := true } :=
  { h with cancelOutsideHandler := fun _ => hp }

theorem inv_cancelStep2_off : StateInv { s with cancelStep2 := false } :=
  { h with cancelOutsideHandler := fun hc => nomatch hc }

/-- An operation issued where R71 admits it keeps the invariant: TRNG_CANCEL is issued outside the handler only, and
IRQ_ENTER enters it outside TRNG_CANCEL only. -/
theorem exec_keeps_inv (i : Instr) (hf : s.faults = []) (ha : admitsNow i s = true) (he : exec i s = .next t) :
    StateInv t := by
  apply exec_cases StateInv i s t he
  case emits => exact inv_emit h
  case refuses => exact inv_refuse h
  case faults => exact inv_raiseFault h hf
  case backends => exact inv_backend h
  case get => exact fun _ _ => inv_emit (inv_crWrite h _) _ _
  case cancel =>
    rintro rfl -
    have hfree : threadBusy s = false := by simpa [admitsNow, agentOf] using ha
    exact inv_cancelStep2_on (inv_crWrite h _) (Bool.or_eq_false_iff.mp hfree).2
  case client => exact fun c _ hc => inv_setClient h hc
  case enter =>
    rintro rfl hp
    exact inv_goTo h (admitsNow_irqEnter_idle s ha hp) .h1
  case exhaust => exact fun _ _ _ _ => inv_emit (inv_seq h _) _ _
  case pull => exact fun _ _ _ _ => inv_emit (inv_afterDrRead h) _ _
  case more => exact fun _ _ => inv_returnHandler (inv_logEvent h _)
  case done => exact fun _ _ _ => inv_returnHandler (inv_logEvent (inv_crWrite h _) _)
  case load => exact fun w _ => inv_loadWord h w
  case seed => exact fun _ => inv_setSrBit h (by decide) (by decide) _
  case clock => exact fun _ => inv_setSrBit h (by decide) (by decide) _
  case seedNow => exact fun b _ => inv_setSrBit h (by decide) (by decide) b
  case clockNow => exact fun b _ => inv_setSrBit h (by decide) (by decide) b

theorem threadStep_keeps_inv (hf : s.faults = []) : StateInv (threadStep s) := by
  apply threadStep_cases StateInv s
  case still => exact h
  case faults => exact fun r => inv_raiseFault h hf _
  case cancel => exact fun _ _ => inv_emit (inv_cancelStep2_off (inv_crWrite h _)) _ _
  case test => exact fun hc _ label => inv_goTo h hc label
  case latch => exact fun hc _ label => inv_goTo (inv_latch h) hc label
  case clearSeed => exact fun hc _ _ => inv_goTo (inv_srWrite h _) hc _
  case discard => exact fun hc _ _ => inv_goTo (inv_afterDrRead h) hc _
  case off => exact fun hc _ _ => inv_goTo (inv_crWrite h _) hc _
  case on => exact fun _ _ _ => inv_returnHandler (inv_crWrite h _)
  case hook => exact fun hc _ => inv_goTo (inv_rngReconfigure h) (by simpa using hc) _
  case clearClock => exact fun _ _ _ => inv_returnHandler (inv_srWrite h _)
  case noClient => exact fun _ _ _ => inv_returnHandler h
  case invoke => exact fun _ _ c hc => inv_clientActive (inv_seq (inv_logEvent h (.clientInvoked c)) .fresh) (by simp [hc])

end Invariant

/-- Settles O15: the thread's own step, a refusal and an admitted operation each keep the invariant. -/
theorem everyStepKeepsTheInvariant : Obligations.EveryStepKeepsTheInvariant := by
  intro s t h hst
  obtain ⟨hf, ⟨q, rfl⟩ | ⟨r, q, rfl⟩ | ⟨i, q, -, ha, he⟩⟩ := step_cases s t hst
  · exact threadStep_keeps_inv (inv_queue h q) hf
  · exact inv_refuse (inv_queue h q) r
  · exact exec_keeps_inv (inv_queue h q) i hf ha he

/-! ## CED (10_state.md R25) -/

/-- No CR write of the block names CED: what it writes carries CED as it was read. -/
theorem ced_crAfterWrite (v : Word) : (crAfterWrite v).getLsbD cedBit = v.getLsbD cedBit := by
  rw [getLsbD_crAfterWrite]; simp [cedBit]

theorem ced_putBit_ie (v : Word) (b : Bool) : (putBit v ieBit b).getLsbD cedBit = v.getLsbD cedBit :=
  getLsbD_putBit_ne v ieBit b cedBit (by decide)

theorem ced_putBit_rngen (v : Word) (b : Bool) : (putBit v rngenBit b).getLsbD cedBit = v.getLsbD cedBit :=
  getLsbD_putBit_ne v rngenBit b cedBit (by decide)

theorem ced_of_read (s : State) : (s.cr &&& crMask).getLsbD cedBit = cedSet s := by
  rw [BitVec.getLsbD_and, getLsbD_crMask]; simp [cedBit, cedSet]

theorem exec_keeps_ced {i : Instr} {s t : State} (he : exec i s = .next t) : cedSet t = cedSet s := by
  apply exec_cases (fun u => cedSet u = cedSet s) i s t he
  case get | done =>
    intros
    exact (ced_crAfterWrite _).trans <| (ced_putBit_rngen _ _).trans <| (ced_putBit_ie _ _).trans <| ced_of_read s
  case cancel => intros; exact (ced_crAfterWrite _).trans <| (ced_putBit_rngen _ _).trans <| ced_of_read s
  all_goals intros; rfl

theorem threadStep_keeps_ced (s : State) : cedSet (threadStep s) = cedSet s := by
  apply threadStep_cases (fun u => cedSet u = cedSet s) s
  case cancel => intros; exact (ced_crAfterWrite _).trans <| (ced_putBit_ie _ _).trans <| ced_of_read s
  case off | on => intros; exact (ced_crAfterWrite _).trans <| (ced_putBit_rngen _ _).trans <| ced_of_read s
  case hook => intros; simp [cedSet]
  all_goals intros; rfl

/-- Settles O17: every CR write of the block carries CED as it was read. -/
theorem noStepWritesCed : Obligations.NoStepWritesCed := by
  refine ⟨fun s t hst => ?_, rfl, fun s => ⟨_, rfl, getLsbD_putBit_self _ _ _ (by decide)⟩⟩
  obtain ⟨-, ⟨q, rfl⟩ | ⟨r, q, rfl⟩ | ⟨i, q, -, -, he⟩⟩ := step_cases s t hst
  · exact threadStep_keeps_ced { s with queue := q }
  · rfl
  · exact exec_keeps_ced (s := { s with queue := q }) he

/-! ## Faults and the refusal mark (10_state.md R43) -/

theorem mem_raiseFault_faults {f : Fault} (g : Fault) {s : State} (hf : f ∈ s.faults) :
    f ∈ (raiseFault g s).faults := by
  rw [raiseFault_faults]
  split
  · exact hf
  · exact List.mem_append_left _ hf

theorem refuse_keeps_refused {r : Reason} (r' : Reason) {s : State} (hr : s.refused = some r) :
    (refuse r' s).refused = some r := by simp [hr]

theorem exec_keeps_faults {i : Instr} {s t : State} (he : exec i s = .next t) : ∀ f ∈ s.faults, f ∈ t.faults := by
  apply exec_cases (fun u => ∀ f ∈ s.faults, f ∈ u.faults) i s t he
  case faults => exact fun g f hf => mem_raiseFault_faults g hf
  all_goals intros; assumption

theorem exec_keeps_refused {i : Instr} {s t : State} (he : exec i s = .next t) {r : Reason} (hr : s.refused = some r) :
    t.refused = some r := by
  apply exec_cases (fun u => u.refused = some r) i s t he
  case refuses => exact fun r' => refuse_keeps_refused r' hr
  all_goals intros; exact hr

theorem threadStep_keeps_faults (s : State) : ∀ f ∈ s.faults, f ∈ (threadStep s).faults := by
  apply threadStep_cases (fun u => ∀ f ∈ s.faults, f ∈ u.faults) s
  case faults => exact fun g f hf => mem_raiseFault_faults _ hf
  case hook => intros; simpa
  all_goals intros; assumption

/-- No micro-step and no second write refuses anything. -/
theorem threadStep_refused (s : State) : (threadStep s).refused = s.refused := by
  apply threadStep_cases (fun u => u.refused = s.refused) s
  case hook => intros; simp
  all_goals intros; rfl

theorem step_keeps_refused {s t : State} (hst : step s = .next t) {r : Reason} (hr : s.refused = some r) :
    t.refused = some r := by
  obtain ⟨-, ⟨q, rfl⟩ | ⟨r', q, rfl⟩ | ⟨i, q, -, -, he⟩⟩ := step_cases s t hst
  · exact (threadStep_refused _).trans hr
  · exact refuse_keeps_refused r' hr
  · exact exec_keeps_refused he hr

/-- Settles O18: a fault is only ever added, and a refusal keeps the mark that is there. -/
theorem faultsAndRefusalAreSticky : Obligations.FaultsAndRefusalAreSticky :=
  ⟨fun _ _ _ he => ⟨exec_keeps_faults he, fun _ => exec_keeps_refused he⟩,
    fun s => ⟨threadStep_keeps_faults s, threadStep_refused s⟩,
    fun _ _ hst _ => step_keeps_refused hst, rfl, rfl⟩

/-! ## The traces (10_state.md R41, R42) -/

/-- Both traces of `t` continue those of `s`. -/
def TracesExtend (s t : State) : Prop := s.out <+: t.out ∧ s.ev <+: t.ev

theorem tracesExtend_refl (s : State) : TracesExtend s s := ⟨List.prefix_rfl, List.prefix_rfl⟩

theorem tracesExtend_emit (s : State) (m : Emitter) (r : Result) : TracesExtend s (emit m r s) :=
  ⟨List.prefix_append _ _, List.prefix_rfl⟩

theorem tracesExtend_logEvent (s : State) (e : Event) : TracesExtend s (logEvent e s) :=
  ⟨List.prefix_rfl, List.prefix_append _ _⟩

theorem exec_extends_traces {i : Instr} {s t : State} (he : exec i s = .next t) : TracesExtend s t := by
  apply exec_cases (TracesExtend s) i s t he
  case emits => exact tracesExtend_emit s
  case get | exhaust | pull => intros; exact tracesExtend_emit s _ _
  case more | done => intros; exact tracesExtend_logEvent s _
  all_goals intros; exact tracesExtend_refl s

theorem threadStep_extends_traces (s : State) : TracesExtend s (threadStep s) := by
  apply threadStep_cases (TracesExtend s) s
  case cancel => intros; exact tracesExtend_emit s _ _
  case hook => intros; simp [TracesExtend]
  case invoke => exact fun _ _ c _ => tracesExtend_logEvent s (.clientInvoked c)
  all_goals intros; exact tracesExtend_refl s

/-- Settles O19: the traces change by `emit` and `logEvent` alone, which append. -/
theorem tracesOnlyGrow : Obligations.TracesOnlyGrow := by
  intro s t hst
  obtain ⟨-, ⟨q, rfl⟩ | ⟨r, q, rfl⟩ | ⟨i, q, -, -, he⟩⟩ := step_cases s t hst
  · exact threadStep_extends_traces { s with queue := q }
  · exact tracesExtend_refl s
  · exact exec_extends_traces (s := { s with queue := q }) he

/-! ## The writers of CR (10_state.md R22 to R24) -/

/-- Settles O20: of the effects an operation or a step of the thread can have, the CR writes are the excepted ones. -/
theorem onlyTheDriverAndTheHandlerChangeCr : Obligations.OnlyTheDriverAndTheHandlerChangeCr := by
  constructor
  · intro i s t he hget hcancel hdone
    apply exec_cases (fun u => u.cr = s.cr) i s t he
    case get => exact fun hi _ => absurd hi hget
    case cancel => exact fun hi _ => absurd hi hcancel
    case done => exact fun hi _ _ => absurd hi hdone
    all_goals intros; rfl
  · intro s hc h5 h6
    apply threadStep_cases (fun u => u.cr = s.cr) s
    case cancel => exact fun hc' _ => absurd (hc.symm.trans hc') (by decide)
    case off => exact fun _ hp _ => absurd hp h5
    case on => exact fun _ hp _ => absurd hp h6
    case hook => intros; simp
    all_goals intros; rfl

/-! ## The writers of SR (10_state.md R27 to R30) -/

/-- The operations that write a bit of SR, each with its bit. -/
inductive WritesSrBit : Instr → Nat → Prop where
  | pull : WritesSrBit .seqNext drdyBit
  | load (w : Word) : WritesSrBit (.hwDataReady w) drdyBit
  | seed : WritesSrBit .hwSeedError seisBit
  | clock : WritesSrBit .hwClockError ceisBit
  | seedNow (b : Bool) : WritesSrBit (.hwSeedCurrent b) secsBit
  | clockNow (b : Bool) : WritesSrBit (.hwClockCurrent b) cecsBit

/-- A field write changes a bit only if it is the one it names. -/
theorem putBit_changes_own_bit (i : Instr) (v : Word) (k : Nat) (b : Bool) (hw : WritesSrBit i k) (j : Nat) :
    (putBit v k b).getLsbD j = v.getLsbD j ∨ WritesSrBit i j := by
  by_cases hj : j = k
  · exact .inr (hj ▸ hw)
  · exact .inl (getLsbD_putBit_ne v k b j hj)

/-- An operation keeps every bit of SR that it does not write. -/
theorem exec_sr_bit {i : Instr} {s t : State} (he : exec i s = .next t) (k : Nat) :
    t.sr.getLsbD k = s.sr.getLsbD k ∨ WritesSrBit i k := by
  apply exec_cases (fun u => u.sr.getLsbD k = s.sr.getLsbD k ∨ WritesSrBit i k) i s t he
  case pull => rintro rfl - - -; exact putBit_changes_own_bit _ _ _ _ .pull k
  case load => rintro w rfl; exact putBit_changes_own_bit _ _ _ _ (.load w) k
  case seed => rintro rfl; exact putBit_changes_own_bit _ _ _ _ .seed k
  case clock => rintro rfl; exact putBit_changes_own_bit _ _ _ _ .clock k
  case seedNow => rintro b rfl; exact putBit_changes_own_bit _ _ _ _ (.seedNow b) k
  case clockNow => rintro b rfl; exact putBit_changes_own_bit _ _ _ _ (.clockNow b) k
  all_goals intros; exact .inl rfl

/-- SEIS, CEIS, SECS and CECS have one event each, DRDY its event and SEQ_NEXT. -/
theorem exec_keeps_sr_flags {i : Instr} {s t : State} (he : exec i s = .next t) :
    (i ≠ .hwSeedError → seisSet t = seisSet s) ∧ (i ≠ .hwClockError → ceisSet t = ceisSet s) ∧
    ((∀ b, i ≠ .hwSeedCurrent b) → t.sr.getLsbD secsBit = s.sr.getLsbD secsBit) ∧
    ((∀ b, i ≠ .hwClockCurrent b) → t.sr.getLsbD cecsBit = s.sr.getLsbD cecsBit) ∧
    ((∀ w, i ≠ .hwDataReady w) → i ≠ .seqNext → drdySet t = drdySet s) := by
  refine ⟨fun hi => ?_, fun hi => ?_, fun hi => ?_, fun hi => ?_, fun hload hpull => ?_⟩
  · exact (exec_sr_bit he seisBit).resolve_right fun hw => by cases hw; exact hi rfl
  · exact (exec_sr_bit he ceisBit).resolve_right fun hw => by cases hw; exact hi rfl
  · exact (exec_sr_bit he secsBit).resolve_right fun hw => by cases hw; exact hi _ rfl
  · exact (exec_sr_bit he cecsBit).resolve_right fun hw => by cases hw; exact hi _ rfl
  · refine (exec_sr_bit he drdyBit).resolve_right fun hw => ?_
    cases hw with
    | pull => exact hpull rfl
    | load w => exact hload w rfl

/-- An SR write changes no bit but SEIS and CEIS (20_memory.md R63). -/
theorem srAfterWrite_changes_flags (sr v : Word) (k : Nat) :
    (srAfterWrite sr v).getLsbD k = sr.getLsbD k ∨ k = seisBit ∨ k = ceisBit := by
  rw [getLsbD_srAfterWrite]
  by_cases h6 : k = 6
  · exact .inr (.inl h6)
  by_cases h5 : k = 5
  · exact .inr (.inr h5)
  simp [h6, h5]

/-- The steps of the thread that write a bit of SR: the write-backs of H3 and H10, and the DR read of H4. -/
def ThreadWritesSrBit (s : State) (k : Nat) : Prop :=
  s.cancelStep2 = false ∧
    ((s.phase = .running .h3 ∨ s.phase = .running .h10) ∧ (k = seisBit ∨ k = ceisBit) ∨
     s.phase = .running .h4 ∧ k = drdyBit)

/-- A step of the thread keeps every bit of SR that it does not write. -/
theorem threadStep_sr_bit (s : State) (k : Nat) :
    (threadStep s).sr.getLsbD k = s.sr.getLsbD k ∨ ThreadWritesSrBit s k := by
  apply threadStep_cases (fun u => u.sr.getLsbD k = s.sr.getLsbD k ∨ ThreadWritesSrBit s k) s
  case clearSeed =>
    intro hc hp _
    exact (srAfterWrite_changes_flags s.sr _ k).imp_right fun hk => ⟨hc, .inl ⟨.inl hp, hk⟩⟩
  case clearClock =>
    intro hc hp _
    exact (srAfterWrite_changes_flags s.sr _ k).imp_right fun hk => ⟨hc, .inl ⟨.inr hp, hk⟩⟩
  case discard =>
    intro hc hp _
    by_cases hk : k = drdyBit
    · exact .inr ⟨hc, .inr ⟨hp, hk⟩⟩
    · exact .inl (getLsbD_putBit_ne s.sr drdyBit false k hk)
  case hook => intros; exact .inl (by simp)
  all_goals intros; exact .inl rfl

theorem srAfterWrite_sets_no_bit {sr v : Word} {k : Nat} (h : (srAfterWrite sr v).getLsbD k = true) :
    sr.getLsbD k = true := by
  rw [getLsbD_srAfterWrite, Bool.and_eq_true] at h; exact h.1

theorem putBit_false_sets_no_bit {v : Word} {j k : Nat} (h : (putBit v j false).getLsbD k = true) :
    v.getLsbD k = true := by
  rw [getLsbD_putBit] at h
  split at h
  · cases h
  · exact h

/-- The thread only clears bits of SR. -/
theorem threadStep_sets_no_sr_bit (s : State) (k : Nat) :
    (threadStep s).sr.getLsbD k = true → s.sr.getLsbD k = true := by
  apply threadStep_cases (fun u => u.sr.getLsbD k = true → s.sr.getLsbD k = true) s
  case clearSeed | clearClock => intros; exact srAfterWrite_sets_no_bit ‹_›
  case discard => intros; exact putBit_false_sets_no_bit ‹_›
  case hook => intro _ _; simp
  all_goals intros; assumption

theorem threadStep_keeps_sr_flags (s : State) :
    (s.cancelStep2 = true ∨ (s.phase ≠ .running .h3 ∧ s.phase ≠ .running .h10) →
      seisSet (threadStep s) = seisSet s ∧ ceisSet (threadStep s) = ceisSet s) ∧
    (s.cancelStep2 = true ∨ s.phase ≠ .running .h4 → drdySet (threadStep s) = drdySet s) := by
  constructor
  · intro h
    have hkeep : ∀ k, k ≠ drdyBit → ¬ ThreadWritesSrBit s k := by
      rintro k hk ⟨hc, ⟨hp, -⟩ | ⟨-, rfl⟩⟩
      · simp_all
      · exact hk rfl
    exact ⟨(threadStep_sr_bit s seisBit).resolve_right (hkeep _ (by decide)),
      (threadStep_sr_bit s ceisBit).resolve_right (hkeep _ (by decide))⟩
  · intro h
    refine (threadStep_sr_bit s drdyBit).resolve_right ?_
    rintro ⟨hc, ⟨-, hk⟩ | ⟨hp, -⟩⟩
    · exact absurd hk (by decide)
    · simp_all

/-- SECS and CECS are no bits that the thread writes. -/
theorem threadStep_keeps_current_bit (s : State) {k : Nat} (hk : k = secsBit ∨ k = cecsBit) :
    (threadStep s).sr.getLsbD k = s.sr.getLsbD k := by
  refine (threadStep_sr_bit s k).resolve_right ?_
  have hk : k ≠ seisBit ∧ k ≠ ceisBit ∧ k ≠ drdyBit := by rcases hk with rfl | rfl <;> decide
  obtain ⟨hseis, hceis, hdrdy⟩ := hk
  rintro ⟨-, ⟨-, rfl | rfl⟩ | ⟨-, rfl⟩⟩
  · exact hseis rfl
  · exact hceis rfl
  · exact hdrdy rfl

/-- Settles O21: bit by bit, from the writers of SR among the operations and among the steps of the thread. -/
theorem eachSrBitHasItsWriters : Obligations.EachSrBitHasItsWriters :=
  ⟨fun _ _ _ he => exec_keeps_sr_flags he, fun s =>
    ⟨threadStep_keeps_current_bit s (.inl rfl), threadStep_keeps_current_bit s (.inr rfl),
      threadStep_sets_no_sr_bit s, threadStep_keeps_sr_flags s⟩⟩

/-! ## The client slot (10_state.md R36) -/

/-- Settles O22: of all effects, that of TRNG_SET_CLIENT alone names the slot. -/
theorem onlySetClientWritesTheClient : Obligations.OnlySetClientWritesTheClient := by
  constructor
  · intro i s t he
    apply exec_cases (fun u => u.client = s.client ∨ ∃ c, i = .trngSetClient c ∧ u.client = some c) i s t he
    case client => exact fun c hi _ => .inr ⟨c, hi, rfl⟩
    all_goals intros; exact .inl rfl
  · intro s
    apply threadStep_cases (fun u => u.client = s.client) s
    case hook => intros; simp
    all_goals intros; rfl

/-! ## The word sequence (10_state.md R39) -/

/-- Settles O56: SEQ_NEXT only exhausts a sequence, and H11 alone starts one. -/
theorem exhaustedSequencesStayExhausted : Obligations.ExhaustedSequencesStayExhausted := by
  constructor
  · intro i s t he hx
    apply exec_cases (fun u => u.seq = .exhausted) i s t he
    case exhaust => intros; rfl
    all_goals intros; exact hx
  · intro s h
    apply threadStep_cases (fun u => u.seq = s.seq) s
    case invoke =>
      intro hc hp
      rcases h with hc' | hp'
      · exact absurd (hc.symm.trans hc') (by decide)
      · exact absurd hp hp'
    case hook => intros; simp
    all_goals intros; rfl

/-! ## The clock configuration (10_state.md R34) -/

/-- The system frequency, both prescalers and the timer flag are the same in both backends. -/
def SameClockConfiguration (b c : Backend) : Prop :=
  b.sysFreq = c.sysFreq ∧ b.apb1Presc = c.apb1Presc ∧ b.apb2Presc = c.apb2Presc ∧ b.timpre = c.timpre

theorem sameClockConfiguration_refl (b : Backend) : SameClockConfiguration b b := ⟨rfl, rfl, rfl, rfl⟩

theorem enableLine_keeps_clockConfiguration (id : ClockId) (s : State) :
    SameClockConfiguration (enableLine id s).backend s.backend := by
  rw [enableLine_backend]; split <;> simp [SameClockConfiguration]

theorem disableLine_keeps_clockConfiguration (id : ClockId) (s : State) :
    SameClockConfiguration (disableLine id s).backend s.backend := by
  simp [SameClockConfiguration]

theorem withHandle_keeps_clockConfiguration {id : ClockId} {next : State → State} {s : State}
    (h : SameClockConfiguration (next s).backend s.backend) :
    SameClockConfiguration (withHandle id next s).backend s.backend := by
  unfold withHandle; split
  · exact h
  · exact sameClockConfiguration_refl _

theorem reportHandle_backend (m : Emitter) (e : Option ClockId) (s : State) :
    (reportHandle m e s).backend = s.backend := by
  unfold reportHandle; split <;> rfl

theorem reportFrequency_backend (id : ClockId) (s : State) : (reportFrequency id s).backend = s.backend := by
  unfold reportFrequency; split <;> rfl

/-- A ModifyCR leaves the backend alone, whether it writes or faults, if what follows it does. -/
theorem modifyCR_backend (f : Word → Word) (next : Unit → State → State) (s : State)
    (hn : ∀ u, (next () u).backend = u.backend) : (andThen (modifyCR f s) next).backend = s.backend := by
  cases hc : rngClockOn s
  · rw [modifyCR_off f s hc]; rfl
  · rw [modifyCR_on f s hc]; exact hn _

/-! A pull, by the state of the sequence, the RNG clock and DRDY (44_trng_interrupt.md R202, R203). -/

theorem pullWord_exhausted (s : State) (hq : s.seq = .exhausted) : pullWord s = emit .seqNext (.word none) s := by
  rw [pullWord, hq]

theorem pullWord_gated (s : State) (hq : s.seq = .fresh) (hc : rngClockOn s = false) :
    pullWord s = raiseFault (.rngClockGated .sr) s := by
  rw [pullWord, hq, regRead_off .sr s hc]; rfl

theorem pullWord_empty (s : State) (hq : s.seq = .fresh) (hc : rngClockOn s = true) (hd : drdySet s = false) :
    pullWord s = emit .seqNext (.word none) { s with seq := .exhausted } := by
  rw [pullWord, hq]; dsimp only
  rw [regRead_sr_on s hc, andThen_done, drdy_of_read, if_neg (by simp [hd])]

theorem pullWord_word (s : State) (hq : s.seq = .fresh) (hc : rngClockOn s = true) (hd : drdySet s = true) :
    pullWord s = emit .seqNext (.word (some (drWord s))) (afterDrRead s) := by
  rw [pullWord, hq]; dsimp only
  rw [regRead_sr_on s hc, andThen_done, drdy_of_read, if_pos hd, regRead_dr_on s hc, andThen_done]

theorem pullWord_backend (s : State) : (pullWord s).backend = s.backend := by
  cases hq : s.seq with
  | exhausted => rw [pullWord_exhausted s hq]; rfl
  | fresh =>
    cases hc : rngClockOn s
    · rw [pullWord_gated s hq hc]; rfl
    · cases hd : drdySet s
      · rw [pullWord_empty s hq hc hd]; rfl
      · rw [pullWord_word s hq hc hd]; rfl

/-- Every operation but the ENV events keeps the clock configuration; the other writers of the backend are the line
writes of CLK_* and TRNG_*. -/
theorem exec_keeps_clockConfiguration {i : Instr} {s t : State} (he : exec i s = .next t)
    (hi : agentOf i ≠ .environment) : SameClockConfiguration t.backend s.backend := by
  have of_eq : ∀ {u : State}, u.backend = s.backend → SameClockConfiguration u.backend s.backend :=
    fun h => h ▸ sameClockConfiguration_refl _
  cases i <;> cases he
  case clkEnable id => exact withHandle_keeps_clockConfiguration (enableLine_keeps_clockConfiguration id s)
  case trngEnableClock => exact enableLine_keeps_clockConfiguration _ s
  case clkDisable id => exact withHandle_keeps_clockConfiguration (disableLine_keeps_clockConfiguration id s)
  case trngDisableClock => exact disableLine_keeps_clockConfiguration _ s
  case clkGetFrequency id => exact withHandle_keeps_clockConfiguration (of_eq (reportFrequency_backend id s))
  case clkIsEnabled | clkConfigure => exact withHandle_keeps_clockConfiguration (sameClockConfiguration_refl _)
  case regGpioHandle | regPeriphHandle => exact of_eq (reportHandle_backend _ _ s)
  case trngGet | trngCancel => exact of_eq (modifyCR_backend _ _ s fun _ => rfl)
  case trngSetClient => split <;> exact sameClockConfiguration_refl _
  case irqEnter => split <;> exact sameClockConfiguration_refl _
  case seqNext =>
    split
    · exact of_eq (pullWord_backend s)
    all_goals exact sameClockConfiguration_refl _
  case clientReturn r =>
    split
    case h_2 => exact of_eq (modifyCR_backend _ _ s fun _ => rfl)
    all_goals exact sameClockConfiguration_refl _
  case envSetSysfreq | envSetApb1Presc | envSetApb2Presc | envSetTimpre => exact absurd rfl hi
  all_goals exact sameClockConfiguration_refl _

/-- Settles O23: line writes keep the configuration, and H8's hook keeps the backend where no effect is listed. -/
theorem onlyEnvironmentEventsWriteTheClockConfiguration :
    Obligations.OnlyEnvironmentEventsWriteTheClockConfiguration := by
  refine ⟨fun i s t he hi => exec_keeps_clockConfiguration he hi, fun s h => ?_⟩
  apply threadStep_cases (fun u => u.backend = s.backend) s
  case hook =>
    intro _ hp
    rw [rngReconfigure_default s (h.resolve_right fun hp' => hp' hp)]; rfl
  all_goals intros; rfl

/-! ## SECS and CECS decide nothing (10_state.md R30)

A run is compared with the run from the state whose current bits are erased: two states that differ at most in these bits
have the same erasure, so it is enough that every operation ends in the same erasure from a state as from its erasure. -/

/-- A word of SR with SECS and CECS 0. -/
def eraseBits (w : Word) : Word := w &&& 0xFFFFFFF9

/-- The state with SECS and CECS 0 in SR and in the handler's latch. -/
def eraseCurrent (s : State) : State := { s with sr := eraseBits s.sr, hsr := eraseBits s.hsr }

@[simp] theorem eraseCurrent_backend (s : State) : (eraseCurrent s).backend = s.backend := rfl
@[simp] theorem eraseCurrent_client (s : State) : (eraseCurrent s).client = s.client := rfl
@[simp] theorem eraseCurrent_phase (s : State) : (eraseCurrent s).phase = s.phase := rfl
@[simp] theorem eraseCurrent_faults (s : State) : (eraseCurrent s).faults = s.faults := rfl
@[simp] theorem eraseCurrent_queue (s : State) : (eraseCurrent s).queue = s.queue := rfl

theorem sameButCurrentBits_iff (s t : State) : SameButCurrentBits s t ↔ eraseCurrent s = eraseCurrent t := Iff.rfl

/-- The bits that are left: all but SECS and CECS. -/
theorem getLsbD_eraseBits (w : Word) (i : Nat) :
    (eraseBits w).getLsbD i = (w.getLsbD i && (0xFFFFFFF9 : Word).getLsbD i) := BitVec.getLsbD_and

theorem eraseBits_idem (w : Word) : eraseBits (eraseBits w) = eraseBits w := by
  simp [eraseBits, BitVec.and_assoc]

theorem eraseCurrent_idem (s : State) : eraseCurrent (eraseCurrent s) = eraseCurrent s := by
  simp [eraseCurrent, eraseBits_idem]

theorem eraseBits_putBit (w : Word) (k : Nat) (b : Bool) :
    eraseBits (putBit (eraseBits w) k b) = eraseBits (putBit w k b) := by
  apply word_ext; intro i _
  simp only [getLsbD_eraseBits, getLsbD_putBit]
  split
  · rfl
  · rw [Bool.and_assoc, Bool.and_self]

theorem eraseBits_srMask (w : Word) : eraseBits (eraseBits w &&& srMask) = eraseBits (w &&& srMask) := by
  apply word_ext; intro i _
  simp only [getLsbD_eraseBits, BitVec.getLsbD_and]
  cases (0xFFFFFFF9 : Word).getLsbD i <;> simp only [Bool.and_true, Bool.and_false]

/-- An SR write carries SECS and CECS of neither word into the other bits. -/
theorem eraseBits_srAfterWrite (sr h : Word) (k : Nat) :
    eraseBits (srAfterWrite (eraseBits sr) (putBit (eraseBits h) k false)) =
      eraseBits (srAfterWrite sr (putBit h k false)) := by
  apply word_ext; intro i _
  simp only [getLsbD_eraseBits, getLsbD_srAfterWrite, getLsbD_putBit]
  cases (0xFFFFFFF9 : Word).getLsbD i <;> simp only [Bool.and_true, Bool.and_false]

theorem seisSet_eraseCurrent (s : State) : seisSet (eraseCurrent s) = seisSet s := by
  simp only [seisSet, eraseCurrent, getLsbD_eraseBits]; exact Bool.and_true _

theorem ceisSet_eraseCurrent (s : State) : ceisSet (eraseCurrent s) = ceisSet s := by
  simp only [ceisSet, eraseCurrent, getLsbD_eraseBits]; exact Bool.and_true _

theorem drdySet_eraseCurrent (s : State) : drdySet (eraseCurrent s) = drdySet s := by
  simp only [drdySet, eraseCurrent, getLsbD_eraseBits]; exact Bool.and_true _

/-- An update that ends in the same erasure from a state as from its erasure. -/
def IgnoresCurrentBits (f : State → State) : Prop := ∀ s, eraseCurrent (f (eraseCurrent s)) = eraseCurrent (f s)

/-- An update that commutes with the erasure. -/
theorem ignores_of_commutes {f : State → State} (h : ∀ s, f (eraseCurrent s) = eraseCurrent (f s)) :
    IgnoresCurrentBits f := fun s => by rw [h, eraseCurrent_idem]

theorem ignores_comp {f g : State → State} (hf : IgnoresCurrentBits f) (hg : IgnoresCurrentBits g) :
    IgnoresCurrentBits fun s => f (g s) := fun s => by
  calc eraseCurrent (f (g (eraseCurrent s)))
      = eraseCurrent (f (eraseCurrent (g (eraseCurrent s)))) := (hf _).symm
    _ = eraseCurrent (f (eraseCurrent (g s))) := by rw [hg s]
    _ = eraseCurrent (f (g s)) := hf _

theorem ignores_refuse (r : Reason) : IgnoresCurrentBits (refuse r) := ignores_of_commutes fun _ => rfl

theorem ignores_raiseFault (f : Fault) : IgnoresCurrentBits (raiseFault f) := ignores_of_commutes fun _ => rfl

theorem ignores_setSrBit (k : Nat) (b : Bool) : IgnoresCurrentBits (setSrBit k b) := fun s => by
  simp [eraseCurrent, setSrBit, eraseBits_putBit, eraseBits_idem]

theorem ignores_afterDrRead : IgnoresCurrentBits afterDrRead :=
  ignores_comp (g := fun s => { s with draws := if s.drLoaded then s.draws else s.draws + 1 })
    (ignores_setSrBit drdyBit false) (ignores_of_commutes fun _ => rfl)

theorem ignores_loadWord (w : Word) : IgnoresCurrentBits (loadWord w) :=
  ignores_comp (g := fun s => { s with dr := w, drLoaded := true })
    (ignores_setSrBit drdyBit true) (ignores_of_commutes fun _ => rfl)

theorem ignores_latch : IgnoresCurrentBits fun s => { s with hsr := s.sr &&& srMask } := fun s => by
  simp [eraseCurrent, eraseBits_srMask, eraseBits_idem]

theorem ignores_writeBack (k : Nat) :
    IgnoresCurrentBits fun s => { s with sr := srAfterWrite s.sr (putBit s.hsr k false) } := fun s => by
  simp [eraseCurrent, eraseBits_srAfterWrite, eraseBits_idem]

theorem ignores_goTo (label : HandlerStep) : IgnoresCurrentBits (goTo label) := ignores_of_commutes fun _ => rfl

theorem ignores_returnHandler : IgnoresCurrentBits returnHandler := ignores_of_commutes fun _ => rfl

theorem ignores_rngReconfigure : IgnoresCurrentBits rngReconfigure := ignores_of_commutes fun s => by
  cases hr : s.reconfigEffects with
  | nil => rw [rngReconfigure_default s hr, rngReconfigure_default (eraseCurrent s) hr]; rfl
  | cons b rest => rw [rngReconfigure_listed s b rest hr, rngReconfigure_listed (eraseCurrent s) b rest hr]; rfl

theorem ignores_setBackend (g : Backend → Backend) : IgnoresCurrentBits fun s => { s with backend := g s.backend } :=
  ignores_of_commutes fun _ => rfl

theorem ignores_enableLine (id : ClockId) : IgnoresCurrentBits (enableLine id) := ignores_of_commutes fun _ => rfl

theorem ignores_disableLine (id : ClockId) : IgnoresCurrentBits (disableLine id) := ignores_of_commutes fun _ => rfl

theorem ignores_reportLine (m : Emitter) (id : ClockId) : IgnoresCurrentBits (reportLine m id) :=
  ignores_of_commutes fun _ => rfl

theorem ignores_withHandle (id : ClockId) {next : State → State} (h : IgnoresCurrentBits next) :
    IgnoresCurrentBits (withHandle id next) := fun s => by
  unfold withHandle; split
  · exact h s
  · exact ignores_refuse _ s

theorem ignores_reportHandle (m : Emitter) (e : Option ClockId) : IgnoresCurrentBits (reportHandle m e) :=
  ignores_of_commutes fun _ => by cases e <;> rfl

theorem ignores_reportFrequency (id : ClockId) : IgnoresCurrentBits (reportFrequency id) :=
  ignores_of_commutes fun s => by
    rw [reportFrequency, reportFrequency, eraseCurrent_backend]
    cases frequencyOf id s.backend <;> rfl

/-- A register access: the clock is tested alike, so it is enough to compare what is left with the clock on. -/
theorem ignores_gated {f g : State → State} {r : Reg} (on : ∀ s, rngClockOn s = true → f s = g s)
    (off : ∀ s, rngClockOn s = false → f s = raiseFault (.rngClockGated r) s) (hg : IgnoresCurrentBits g) :
    IgnoresCurrentBits f := fun s => by
  cases hc : rngClockOn s
  · rw [off s hc, off (eraseCurrent s) hc]; exact ignores_raiseFault _ s
  · rw [on s hc, on (eraseCurrent s) hc]; exact hg s

theorem ignores_modifyCR (f : Word → Word) {next : Unit → State → State} (h : IgnoresCurrentBits (next ())) :
    IgnoresCurrentBits fun s => andThen (modifyCR f s) next :=
  ignores_gated (r := .cr) (g := fun s => next () { s with cr := crAfterWrite (f (s.cr &&& crMask)) })
    (fun s hc => by rw [modifyCR_on f s hc, andThen_done])
    (fun s hc => by rw [modifyCR_off f s hc, andThen_faulted])
    (ignores_comp h (ignores_of_commutes fun _ => rfl))

/-! The handler's micro-steps (44_trng_interrupt.md R191). -/

theorem ignores_microH1 : IgnoresCurrentBits microH1 :=
  ignores_gated microH1_on (fun s hc => by rw [microH1, regRead_off .sr s hc, andThen_faulted])
    (ignores_of_commutes fun s => by rw [seisSet_eraseCurrent]; rfl)

theorem ignores_microH2 : IgnoresCurrentBits microH2 :=
  ignores_gated microH2_on (fun s hc => by rw [microH2, regRead_off .sr s hc, andThen_faulted])
    (ignores_comp (ignores_goTo .h3) ignores_latch)

theorem ignores_microH3 : IgnoresCurrentBits microH3 :=
  ignores_gated microH3_on (fun s hc => by rw [microH3, regWrite_off .sr _ s hc, andThen_faulted])
    (ignores_comp (ignores_goTo .h4) (ignores_writeBack seisBit))

theorem ignores_microH4 : IgnoresCurrentBits microH4 :=
  ignores_gated microH4_on (fun s hc => by rw [microH4, regRead_off .dr s hc, andThen_faulted])
    (ignores_comp (ignores_goTo .h5) ignores_afterDrRead)

theorem ignores_microH7 : IgnoresCurrentBits microH7 :=
  ignores_gated microH7_on (fun s hc => by rw [microH7, regRead_off .sr s hc, andThen_faulted])
    (ignores_of_commutes fun s => by rw [ceisSet_eraseCurrent]; rfl)

theorem ignores_microH8 : IgnoresCurrentBits microH8 := fun s => by
  rw [microH8_eq, microH8_eq]; exact ignores_comp (ignores_goTo .h9) ignores_rngReconfigure s

theorem ignores_microH9 : IgnoresCurrentBits microH9 :=
  ignores_gated microH9_on (fun s hc => by rw [microH9, regRead_off .sr s hc, andThen_faulted])
    (ignores_comp (ignores_goTo .h10) ignores_latch)

theorem ignores_microH10 : IgnoresCurrentBits microH10 :=
  ignores_gated microH10_on (fun s hc => by rw [microH10, regWrite_off .sr _ s hc, andThen_faulted])
    (ignores_comp ignores_returnHandler (ignores_writeBack ceisBit))

theorem ignores_microH11 : IgnoresCurrentBits microH11 := ignores_of_commutes fun s => by
  rw [microH11, microH11, eraseCurrent_client]
  cases s.client <;> rfl

theorem ignores_handlerStep (label : HandlerStep) : IgnoresCurrentBits (handlerStep label) := by
  cases label with
  | h1 => exact ignores_microH1
  | h2 => exact ignores_microH2
  | h3 => exact ignores_microH3
  | h4 => exact ignores_microH4
  | h5 => exact ignores_modifyCR _ (ignores_goTo .h6)
  | h6 => exact ignores_modifyCR _ ignores_returnHandler
  | h7 => exact ignores_microH7
  | h8 => exact ignores_microH8
  | h9 => exact ignores_microH9
  | h10 => exact ignores_microH10
  | h11 => exact ignores_microH11

theorem ignores_threadStep : IgnoresCurrentBits threadStep := fun s => by
  cases hc : s.cancelStep2 with
  | true =>
    rw [threadStep_cancel s hc, threadStep_cancel (eraseCurrent s) hc]
    exact ignores_modifyCR _ (ignores_of_commutes fun _ => rfl) s
  | false =>
    have still : threadBusy s = false → eraseCurrent (threadStep (eraseCurrent s)) = eraseCurrent (threadStep s) :=
      fun hb => by rw [threadStep_free s hb, threadStep_free (eraseCurrent s) hb, eraseCurrent_idem]
    cases hp : s.phase with
    | idle => exact still (by simp [threadBusy, inHandler, hc, hp])
    | clientActive => exact still (by simp [threadBusy, inHandler, hc, hp])
    | running label =>
      rw [threadStep_running s label hc hp, threadStep_running (eraseCurrent s) label hc hp]
      exact ignores_handlerStep label s

/-! The operations. -/

/-- A pull reads DRDY alone of SR. -/
theorem ignores_pullWord : IgnoresCurrentBits pullWord := fun s => by
  cases hq : s.seq with
  | exhausted =>
    rw [pullWord_exhausted s hq, pullWord_exhausted (eraseCurrent s) hq]
    exact congrArg (emit .seqNext (.word none)) (eraseCurrent_idem s)
  | fresh =>
    cases hc : rngClockOn s
    · rw [pullWord_gated s hq hc, pullWord_gated (eraseCurrent s) hq hc]
      exact ignores_raiseFault _ s
    cases hd : drdySet s
    · rw [pullWord_empty s hq hc hd, pullWord_empty (eraseCurrent s) hq hc ((drdySet_eraseCurrent s).trans hd)]
      exact congrArg (fun t => emit .seqNext (.word none) { t with seq := .exhausted }) (eraseCurrent_idem s)
    · rw [pullWord_word s hq hc hd, pullWord_word (eraseCurrent s) hq hc ((drdySet_eraseCurrent s).trans hd)]
      exact congrArg (emit .seqNext (.word (some (drWord s)))) (ignores_afterDrRead s)

/-- What a step ends in, with the current bits erased. -/
def eraseOutcome : Host.Outcome State Fault Refusal → Host.Outcome State Fault Refusal
  | .next s => .next (eraseCurrent s)
  | .fault f => .fault f
  | .refused r => .refused r

theorem eraseOutcome_of_ignores {f : State → State} (h : IgnoresCurrentBits f) (s : State) :
    eraseOutcome (.next (f (eraseCurrent s))) = eraseOutcome (.next (f s)) :=
  congrArg Host.Outcome.next (h s)

/-- No operation's effect depends on a current bit, and none carries one into another field. -/
theorem eraseOutcome_exec (i : Instr) (s : State) :
    eraseOutcome (exec i (eraseCurrent s)) = eraseOutcome (exec i s) := by
  cases i with
  | clkIsEnabled id => exact eraseOutcome_of_ignores (ignores_withHandle id (ignores_reportLine _ id)) s
  | clkEnable id => exact eraseOutcome_of_ignores (ignores_withHandle id (ignores_enableLine id)) s
  | clkDisable id => exact eraseOutcome_of_ignores (ignores_withHandle id (ignores_disableLine id)) s
  | clkGetFrequency id => exact eraseOutcome_of_ignores (ignores_withHandle id (ignores_reportFrequency id)) s
  | clkConfigure id => exact eraseOutcome_of_ignores (ignores_withHandle id (ignores_refuse _)) s
  | regGpioHandle k => exact eraseOutcome_of_ignores (ignores_reportHandle _ _) s
  | regPeriphHandle k => exact eraseOutcome_of_ignores (ignores_reportHandle _ _) s
  | trngGet => exact eraseOutcome_of_ignores (ignores_modifyCR _ (ignores_of_commutes fun _ => rfl)) s
  | trngCancel => exact eraseOutcome_of_ignores (ignores_modifyCR _ (ignores_of_commutes fun _ => rfl)) s
  | trngSetClient c =>
    rw [exec, exec, execTrngSetClient, execTrngSetClient]
    split
    · exact eraseOutcome_of_ignores (ignores_of_commutes (f := fun s => { s with client := some c }) fun _ => rfl) s
    · exact eraseOutcome_of_ignores (ignores_refuse _) s
  | trngIsEnabledClock => exact eraseOutcome_of_ignores (ignores_reportLine _ _) s
  | trngEnableClock => exact eraseOutcome_of_ignores (ignores_enableLine _) s
  | trngDisableClock => exact eraseOutcome_of_ignores (ignores_disableLine _) s
  | irqEnter =>
    rw [exec, exec, execIrqEnter, execIrqEnter, eraseCurrent_phase]
    cases s.phase with
    | idle => exact eraseOutcome_of_ignores (ignores_of_commutes (f := enterHandler) fun _ => rfl) s
    | running _ => exact eraseOutcome_of_ignores (ignores_refuse .reentry) s
    | clientActive => exact eraseOutcome_of_ignores (ignores_refuse .reentry) s
  | seqNext =>
    rw [exec, exec, execSeqNext, execSeqNext, eraseCurrent_phase]
    cases s.phase with
    | idle => exact eraseOutcome_of_ignores (ignores_refuse .wrongPhase) s
    | running _ => exact eraseOutcome_of_ignores (ignores_refuse .wrongPhase) s
    | clientActive => exact eraseOutcome_of_ignores ignores_pullWord s
  | clientReturn r =>
    unfold exec execClientReturn; rw [eraseCurrent_phase]
    cases s.phase with
    | idle => exact eraseOutcome_of_ignores (ignores_refuse .wrongPhase) s
    | running _ => exact eraseOutcome_of_ignores (ignores_refuse .wrongPhase) s
    | clientActive =>
      cases r with
      | more => exact eraseOutcome_of_ignores (ignores_of_commutes (f := endInvocation .more) fun _ => rfl) s
      | done => exact eraseOutcome_of_ignores (ignores_modifyCR _ (ignores_of_commutes fun _ => rfl)) s
  | hwDataReady w => exact eraseOutcome_of_ignores (ignores_loadWord w) s
  | hwSeedError => exact eraseOutcome_of_ignores (ignores_setSrBit seisBit true) s
  | hwClockError => exact eraseOutcome_of_ignores (ignores_setSrBit ceisBit true) s
  | hwSeedCurrent b => exact eraseOutcome_of_ignores (ignores_setSrBit secsBit b) s
  | hwClockCurrent b => exact eraseOutcome_of_ignores (ignores_setSrBit cecsBit b) s
  | envSetSysfreq f => exact eraseOutcome_of_ignores (ignores_setBackend fun b => { b with sysFreq := f }) s
  | envSetApb1Presc p => exact eraseOutcome_of_ignores (ignores_setBackend fun b => { b with apb1Presc := p }) s
  | envSetApb2Presc p => exact eraseOutcome_of_ignores (ignores_setBackend fun b => { b with apb2Presc := p }) s
  | envSetTimpre b => exact eraseOutcome_of_ignores (ignores_setBackend fun k => { k with timpre := b }) s

/-! The step. -/

/-- A turn taken from the state with the current bits erased. -/
def eraseTurn : Turn → Turn
  | .stopped f => .stopped f
  | .own s => .own (eraseCurrent s)
  | .reject r s => .reject r (eraseCurrent s)
  | .issue i s => .issue i (eraseCurrent s)

theorem threadBusy_eraseCurrent (s : State) : threadBusy (eraseCurrent s) = threadBusy s := rfl

theorem admitsNow_eraseCurrent (i : Instr) (s : State) : admitsNow i (eraseCurrent s) = admitsNow i s := rfl

/-- Taking a word off the schedule and erasing commute. -/
theorem eraseCurrent_setQueue (s : State) (q : List Slot) :
    { eraseCurrent s with queue := q } = eraseCurrent { s with queue := q } := rfl

theorem issueWord_eraseCurrent (w : Command) (rest : List Slot) (s : State) :
    issueWord w rest (eraseCurrent s) = eraseTurn (issueWord w rest s) := by
  unfold issueWord
  cases decode w <;> rfl

theorem issueIfAdmitted_eraseCurrent (w : Command) (rest : List Slot) (s : State) :
    issueIfAdmitted w rest (eraseCurrent s) = eraseTurn (issueIfAdmitted w rest s) := by
  rw [issueIfAdmitted, issueIfAdmitted, eraseCurrent_setQueue]
  cases decode w with
  | error r => rfl
  | ok i => cases ha : admitsNow i s <;> simp [admitsNow_eraseCurrent, ha, eraseTurn]

/-- The schedule is read without the current bits: the same turn comes next. -/
theorem nextTurn_eraseCurrent (s : State) : nextTurn (eraseCurrent s) = eraseTurn (nextTurn s) := by
  rw [nextTurn, nextTurn, eraseCurrent_faults, eraseCurrent_queue]
  cases s.faults with
  | cons f _ => rfl
  | nil =>
    rcases s.queue with _ | ⟨w | w | _, rest⟩
    · rfl
    · cases hb : threadBusy s <;> simp [threadBusy_eraseCurrent, hb, issueWord_eraseCurrent, eraseTurn]
    · exact issueIfAdmitted_eraseCurrent w rest s
    · rfl

theorem eraseOutcome_step (s : State) : eraseOutcome (step (eraseCurrent s)) = eraseOutcome (step s) := by
  rw [step, step, nextTurn_eraseCurrent]
  cases nextTurn s with
  | stopped f => rfl
  | own t => exact congrArg Host.Outcome.next (ignores_threadStep t)
  | reject r t => exact congrArg Host.Outcome.next (ignores_refuse r t)
  | issue i t => exact eraseOutcome_exec i t

/-- Settles O58: both runs end as the run from their common erasure does. -/
theorem currentBitsDecideNothing : Obligations.CurrentBitsDecideNothing := by
  intro s t hst
  rw [sameButCurrentBits_iff] at hst
  have hstep : eraseOutcome (step s) = eraseOutcome (step t) := by
    rw [← eraseOutcome_step s, hst, eraseOutcome_step t]
  constructor
  · intro s' hs
    rw [hs] at hstep
    cases ht : step t with
    | next t' => rw [ht] at hstep; exact ⟨t', rfl, Host.Outcome.next.inj hstep⟩
    | fault f => rw [ht] at hstep; cases hstep
    | refused r => rw [ht] at hstep; cases hstep
  · intro f hs
    rw [hs] at hstep
    cases ht : step t with
    | next t' => rw [ht] at hstep; cases hstep
    | fault f' => rw [ht] at hstep; exact hstep.symm
    | refused r => rw [ht] at hstep; cases hstep

end Sys2Proof.Proofs

namespace Sys2Proof.Proofs

open Sys2Proof.Machine Sys2Proof.Safety

/-! ## The step and its interleaving (20_memory.md R71) -/

/-- Settles O7: at the head of the schedule an admitted word is performed, and `withFetchWord` puts a word there. -/
theorem stepRunsTheDecodedInstruction : Obligations.StepRunsTheDecodedInstruction := by
  intro s w i rest hf hd
  refine ⟨fun hq ha => step_atOnce s w i rest hf hq hd ha, fun hq hb => step_inOrder s w i rest hf hq hd hb, ?_⟩
  rintro ha nbits n rfl
  exact step_atOnce (s.withFetchWord nbits n) _ i s.queue hf rfl hd ha

/-- A word that may not be issued at this boundary waits, and the thread goes on. -/
theorem step_atOnce_waits (s : State) (w : Command) (i : Instr) (rest : List Slot) (hf : s.faults = [])
    (hq : s.queue = .atOnce w :: rest) (hd : decode w = .ok i) (ha : admitsNow i s = false) :
    step s = .next (threadStep s) := by
  simp [step, nextTurn, hf, hq, issueIfAdmitted, hd, ha]

/-- A word in program order waits while the thread has a step of its own outstanding. -/
theorem step_inOrder_waits (s : State) (w : Command) (rest : List Slot) (hf : s.faults = [])
    (hq : s.queue = .inOrder w :: rest) (hb : threadBusy s = true) : step s = .next (threadStep s) := by
  simp [step, nextTurn, hf, hq, hb]

/-- In the handler, a `thread` entry at the head of the schedule is the micro-step. -/
theorem step_thread_running (s : State) (label : HandlerStep) (rest : List Slot) (hf : s.faults = [])
    (hc : s.cancelStep2 = false) (hp : s.phase = .running label) (hq : s.queue = .thread :: rest) :
    step s = .next (handlerStep label { s with queue := rest }) :=
  (step_thread s rest hf hq).trans
    (congrArg Host.Outcome.next (threadStep_running { s with queue := rest } label hc hp))

theorem normalContext_iff (s : State) : normalContext s = true ↔ s.phase = .idle := by
  unfold normalContext
  cases s.phase <;> simp

theorem admitsNow_hardware {i : Instr} (s : State) (hi : agentOf i = .hardware) : admitsNow i s = true := by
  rw [admitsNow, hi]

theorem admitsNow_environment {i : Instr} (s : State) (hi : agentOf i = .environment) :
    admitsNow i s = !s.cancelStep2 := by
  rw [admitsNow, hi]

/-- IRQ_ENTER may be issued exactly where no normal-context TRNG_CANCEL is in progress (20_memory.md R71 item 5). -/
theorem admitsNow_irqEnter_iff (s : State) :
    admitsNow .irqEnter s = true ↔ s.cancelStep2 = false ∨ s.phase ≠ .idle := by
  rw [admitsNow_irqEnter, Bool.not_eq_true', Bool.and_eq_false_iff, ← Bool.not_eq_true (normalContext s),
    normalContext_iff]

/-- Between TRNG_CANCEL's writes no software, client or environment operation may be issued, and no kernel operation in
normal context (20_memory.md R71 items 1, 4 and 5). -/
theorem admitsNow_splitting_cancel {i : Instr} {s : State} (hc : s.cancelStep2 = true) (hhw : agentOf i ≠ .hardware)
    (hkernel : agentOf i = .kernel → s.phase = .idle) : admitsNow i s = false := by
  cases hi : agentOf i with
  | hardware => exact absurd hi hhw
  | kernel => simp [admitsNow, hi, hc, hkernel hi]
  | software | client | environment => simp [admitsNow, hi, hc, threadBusy]

theorem exec_irqEnter_reentry (s : State) (hp : s.phase ≠ .idle) : exec .irqEnter s = .next (refuse .reentry s) := by
  unfold exec execIrqEnter
  cases h : s.phase with
  | idle => exact absurd h hp
  | running _ => rfl
  | clientActive => rfl

/-- Settles O10: what is not admitted leaves the step to the second write, and in phase Idle alone IRQ_ENTER is not
admitted. -/
theorem nothingElseSplitsTrngCancel : Obligations.NothingElseSplitsTrngCancel := by
  refine ⟨?_, ?_, ?_, admitsNow_irqEnter_iff, ?_⟩
  · intro s w i rest hf hc hd hhw hkernel hq
    rw [step_atOnce_waits s w i rest hf hq hd (admitsNow_splitting_cancel hc hhw hkernel), threadStep_cancel s hc]
  · intro s w rest hf hc hq
    rw [step_inOrder_waits s w rest hf hq (by simp [threadBusy, hc]), threadStep_cancel s hc]
  · intro s rest hf hp hq
    have ha : admitsNow .irqEnter s = true := (admitsNow_irqEnter_iff s).mpr (.inr hp)
    rw [step_atOnce s _ .irqEnter rest hf hq (by decide) ha]
    exact exec_irqEnter_reentry { s with queue := rest } hp
  · intro i s hi
    rw [admitsNow_environment s hi, Bool.not_eq_true']

/-! ## The register block (20_memory.md R60 to R63, R70) -/

theorem regAddress_cr : regAddress .cr = Config.rngBase := BitVec.add_zero _
theorem regAddress_sr : regAddress .sr = Config.rngBase + 4 := rfl
theorem regAddress_dr : regAddress .dr = Config.rngBase + 8 := rfl

theorem regOffset_injective {r r' : Reg} (h : regOffset r = regOffset r') : r = r' := by
  revert h; cases r <;> cases r' <;> decide

theorem regAddress_inj {r r' : Reg} : regAddress r = regAddress r' ↔ r = r' :=
  ⟨fun h => regOffset_injective (BitVec.add_right_inj _ |>.mp h), fun h => h ▸ rfl⟩

/-- Every register is found at its address. -/
theorem regAt_regAddress (r : Reg) : regAt (regAddress r) = some r := by
  cases r <;> simp only [regAt, regAddress_inj] <;> rfl

/-- No register is at any other address. -/
theorem regAt_elsewhere {addr : Word} (hcr : addr ≠ Config.rngBase) (hsr : addr ≠ Config.rngBase + 4)
    (hdr : addr ≠ Config.rngBase + 8) : regAt addr = none := by
  rw [regAt, regAddress_cr, regAddress_sr, regAddress_dr, if_neg hcr, if_neg hsr, if_neg hdr]

theorem memRead_regAddress (r : Reg) (s : State) : memRead (regAddress r) s = some (regRead r s) := by
  rw [memRead, regAt_regAddress]; rfl

theorem memWrite_regAddress (r : Reg) (v : Word) (s : State) :
    memWrite (regAddress r) v s = some (regWrite r v s) := by
  rw [memWrite, regAt_regAddress]; rfl

/-- RNG_BASE and the three offsets are multiples of 4, and so is a sum of them that wraps at 32 bits. -/
theorem regAddress_aligned (r : Reg) : (regAddress r).toNat % 4 = 0 := by
  have hbase : Config.rngBase.toNat % 4 = 0 := by
    rw [Config.rngBase, BitVec.toNat_append]; simp [Nat.shiftLeft_eq]
  have hoffset : (regOffset r).toNat % 4 = 0 := by cases r <;> rfl
  rw [regAddress, BitVec.toNat_add]
  omega

/-- Settles O35: the three addresses are told apart by their offsets. -/
theorem theRegisterBlockHasThreeAddresses : Obligations.TheRegisterBlockHasThreeAddresses := by
  refine fun s v => ⟨fun r => ⟨memRead_regAddress r s, memWrite_regAddress r v s, regAddress_aligned r⟩, ?_⟩
  intro addr hcr hsr hdr
  have hnone : regAt addr = none := regAt_elsewhere hcr hsr hdr
  exact ⟨by rw [memRead, hnone]; rfl, by rw [memWrite, hnone]; rfl⟩

/-- Settles O36: a read is that of the register at the address. -/
theorem registerReads : Obligations.RegisterReads := by
  intro s
  refine ⟨fun (hon : rngClockOn s = true) => ⟨?_, ?_, ?_⟩, fun (hoff : rngClockOn s = false) r => ?_, ?_⟩
  · rw [← regAddress_cr, memRead_regAddress, regRead_cr_on s hon, crMask]
  · rw [← regAddress_sr, memRead_regAddress, regRead_sr_on s hon, srMask]
  · rw [← regAddress_dr, memRead_regAddress, regRead_dr_on s hon, afterDrRead, putBit_drdy_false, drWord]
  · exact (memRead_regAddress r s).trans (congrArg some (regRead_off r s hoff))
  · intro addr hcr hsr hdr
    rw [memRead, regAt_elsewhere hcr hsr hdr]; rfl

/-- Settles O37: a write is that of the register at the address. -/
theorem registerWrites : Obligations.RegisterWrites := by
  intro s v
  refine ⟨fun (hon : rngClockOn s = true) => ⟨?_, ?_, ?_⟩, fun (hoff : rngClockOn s = false) r => ?_⟩
  · rw [← regAddress_cr, memWrite_regAddress, regWrite_cr_on v s hon, crAfterWrite, crMask]
  · rw [← regAddress_sr, memWrite_regAddress, regWrite_sr_on v s hon, srAfterWrite_eq]
  · rw [← regAddress_dr, memWrite_regAddress, regWrite_dr_on v s hon]
  · exact (memWrite_regAddress r v s).trans (congrArg some (regWrite_off r v s hoff))

/-! ## The operations on the registers, with the RNG clock on and gated (20_memory.md R65, R77) -/

theorem exec_trngGet_on (s : State) (h : rngClockOn s = true) :
    exec .trngGet s = .next (emit .trngGet .ok { s with cr := (s.cr &&& 0x20) ||| 0x0C }) := by
  rw [exec, execTrngGet, modifyCR_on _ s h, andThen_done, crAfterWrite_get]

theorem exec_trngGet_off (s : State) (h : rngClockOn s = false) :
    exec .trngGet s = .next (raiseFault (.rngClockGated .cr) s) := by
  rw [exec, execTrngGet, modifyCR_off _ s h, andThen_faulted]

theorem exec_trngCancel_on (s : State) (h : rngClockOn s = true) :
    exec .trngCancel s = .next { s with cr := s.cr &&& 0x28, cancelStep2 := true } := by
  rw [exec, execTrngCancel, modifyCR_on _ s h, andThen_done, crAfterWrite_rngen_off]

theorem exec_trngCancel_off (s : State) (h : rngClockOn s = false) :
    exec .trngCancel s = .next (raiseFault (.rngClockGated .cr) s) := by
  rw [exec, execTrngCancel, modifyCR_off _ s h, andThen_faulted]

theorem exec_seqNext_active (s : State) (hp : s.phase = .clientActive) : exec .seqNext s = .next (pullWord s) := by
  rw [exec, execSeqNext, hp]

theorem exec_clientReturn_done_off (s : State) (hp : s.phase = .clientActive) (h : rngClockOn s = false) :
    exec (.clientReturn .done) s = .next (raiseFault (.rngClockGated .cr) s) := by
  unfold exec execClientReturn
  rw [hp]; dsimp only
  rw [modifyCR_off _ s h, andThen_faulted]

/-- The register that a gated micro-step faults on: that of its first access (44_trng_interrupt.md R191). -/
theorem handlerStep_gated (label : HandlerStep) (s : State) (h : rngClockOn s = false) (h8 : label ≠ .h8)
    (h11 : label ≠ .h11) :
    handlerStep label s = raiseFault
      (.rngClockGated (if label = .h4 then .dr else if label = .h5 ∨ label = .h6 then .cr else .sr)) s := by
  cases label with
  | h1 => simp [handlerStep, microH1, regRead_off .sr s h]
  | h2 => simp [handlerStep, microH2, regRead_off .sr s h]
  | h3 => simp [handlerStep, microH3, regWrite_off .sr _ s h]
  | h4 => simp [handlerStep, microH4, regRead_off .dr s h]
  | h5 => simp [handlerStep, microH5, modifyCR_off _ s h]
  | h6 => simp [handlerStep, microH6, modifyCR_off _ s h]
  | h7 => simp [handlerStep, microH7, regRead_off .sr s h]
  | h8 => exact absurd rfl h8
  | h9 => simp [handlerStep, microH9, regRead_off .sr s h]
  | h10 => simp [handlerStep, microH10, regWrite_off .sr _ s h]
  | h11 => exact absurd rfl h11

/-- The first fault of a run is the only one recorded (60_exceptions.md R252). -/
theorem raiseFault_first (f : Fault) {s : State} (hf : s.faults = []) :
    raiseFault f s = { s with faults := [f] } := by
  simp [raiseFault, hf]

/-! ## CLK_* on other identities leave the registers alone (20_memory.md R77) -/

/-- `t` has the registers and the RNG clock line of `s`, and no register fault that `s` has not. -/
def KeepsRegisters (s t : State) : Prop :=
  t.cr = s.cr ∧ t.sr = s.sr ∧ t.dr = s.dr ∧ t.drLoaded = s.drLoaded ∧ rngClockOn t = rngClockOn s ∧
    ∀ r, Fault.rngClockGated r ∈ t.faults → Fault.rngClockGated r ∈ s.faults

theorem keepsRegisters_emit (m : Emitter) (r : Result) (s : State) : KeepsRegisters s (emit m r s) :=
  ⟨rfl, rfl, rfl, rfl, rfl, fun _ h => h⟩

theorem keepsRegisters_refuse (r : Reason) (s : State) : KeepsRegisters s (refuse r s) :=
  ⟨rfl, rfl, rfl, rfl, rfl, fun _ h => h⟩

theorem keepsRegisters_notImplemented (id : ClockId) (s : State) :
    KeepsRegisters s (raiseFault (.notImplemented id) s) := by
  refine ⟨rfl, rfl, rfl, rfl, rfl, fun r h => ?_⟩
  rw [raiseFault_faults] at h
  split at h
  · exact h
  · simpa using h

theorem keepsRegisters_enableLine {id : ClockId} (hid : id ≠ .ahb2 .rng) (s : State) :
    KeepsRegisters s (enableLine id s) := by
  refine ⟨rfl, rfl, rfl, rfl, (lineOn_setLine_ne _ id _ true hid.symm).trans (lineOn_congr _ _ _ ?_), fun _ h => h⟩
  split <;> rfl

theorem keepsRegisters_disableLine {id : ClockId} (hid : id ≠ .ahb2 .rng) (s : State) :
    KeepsRegisters s (disableLine id s) :=
  ⟨rfl, rfl, rfl, rfl, lineOn_setLine_ne _ id _ false hid.symm, fun _ h => h⟩

theorem keepsRegisters_reportFrequency (id : ClockId) (s : State) : KeepsRegisters s (reportFrequency id s) := by
  unfold reportFrequency; split
  · exact keepsRegisters_emit _ _ s
  · exact keepsRegisters_notImplemented id s

theorem keepsRegisters_withHandle {id : ClockId} {next : State → State} {s : State}
    (h : KeepsRegisters s (next s)) : KeepsRegisters s (withHandle id next s) := by
  unfold withHandle; split
  · exact h
  · exact keepsRegisters_refuse _ s

/-- Settles O38: a gated access ends its operation with the fault of its first register access, and no CLK_* operation
accesses a register. -/
theorem gatedRegisterAccessFaults : Obligations.GatedRegisterAccessFaults := by
  refine fun s => ⟨fun (hoff : rngClockOn s = false) hf => ⟨?_, ?_, ?_, ?_, ?_, ?_⟩, fun id hid i hi => ?_⟩
  · rw [exec_trngGet_off s hoff, raiseFault_first _ hf]
  · rw [exec_trngCancel_off s hoff, raiseFault_first _ hf]
  · intro hp hq
    rw [exec_seqNext_active s hp, pullWord_gated s hq hoff, raiseFault_first _ hf]
  · intro hp
    rw [exec_clientReturn_done_off s hp hoff, raiseFault_first _ hf]
  · rw [cancelSecondWrite_off s hoff, raiseFault_first _ hf]
  · intro label h8 h11
    rw [handlerStep_gated label s hoff h8 h11, raiseFault_first _ hf]
  · simp only [List.mem_cons, List.not_mem_nil, or_false] at hi
    rcases hi with rfl | rfl | rfl | rfl | rfl
    · exact ⟨_, rfl, keepsRegisters_withHandle (keepsRegisters_emit _ _ s)⟩
    · exact ⟨_, rfl, keepsRegisters_withHandle (keepsRegisters_enableLine hid s)⟩
    · exact ⟨_, rfl, keepsRegisters_withHandle (keepsRegisters_disableLine hid s)⟩
    · exact ⟨_, rfl, keepsRegisters_withHandle (keepsRegisters_reportFrequency id s)⟩
    · exact ⟨_, rfl, keepsRegisters_withHandle (keepsRegisters_refuse _ s)⟩

/-! ## Repeated operations (20_memory.md R68) -/

/-- What TRNG_GET leaves in CR, and that it leaves the RNG clock. -/
theorem exec_trngGet_cr {s t : State} (ht : exec .trngGet s = .next t) :
    t.cr = (if rngClockOn s then (s.cr &&& 0x20) ||| 0x0C else s.cr) ∧ rngClockOn t = rngClockOn s := by
  cases hc : rngClockOn s
  · rw [exec_trngGet_off s hc] at ht; cases ht
    exact ⟨rfl, hc⟩
  · rw [exec_trngGet_on s hc] at ht; cases ht
    exact ⟨rfl, hc⟩

/-- TRNG_GET's write does not depend on the bits it sets. -/
theorem trngGet_repeated {s t u : State} (ht : exec .trngGet s = .next t) (hu : exec .trngGet t = .next u) :
    u.cr = t.cr := by
  obtain ⟨htcr, hclock⟩ := exec_trngGet_cr ht
  obtain ⟨hucr, -⟩ := exec_trngGet_cr hu
  rw [hucr, hclock, htcr]
  split
  · rw [BitVec.and_or_distrib_right, BitVec.and_assoc, BitVec.or_assoc]; rfl
  · rfl

theorem driverState_disabled_iff (s : State) :
    driverState s = .disabled ↔ ieSet s = false ∧ rngenSet s = false := by
  unfold driverState
  cases ieSet s <;> cases rngenSet s <;> simp

/-- In the driver state Disabled at most CED is set in CR (10_state.md R35). -/
theorem cr_of_disabled {s : State} (hr : s.cr &&& ~~~crMask = 0) (hd : driverState s = .disabled) :
    s.cr &&& 0x20 = s.cr := by
  obtain ⟨hie, hrngen⟩ := (driverState_disabled_iff s).mp hd
  rw [← (reserved_zero_iff s.cr crMask).mp hr]
  apply word_ext; intro i hi
  simp only [BitVec.getLsbD_and, getLsbD_crMask]
  rw [ieSet, ieBit] at hie
  rw [rngenSet, rngenBit] at hrngen
  interval_cases i <;> simp_all

/-- With the RNG clock gated no step of the thread writes CR. -/
theorem threadStep_gated_cr (s : State) (h : rngClockOn s = false) : (threadStep s).cr = s.cr := by
  apply threadStep_cases (fun u => u.cr = s.cr) s
  case cancel => exact fun _ hon => absurd (h.symm.trans hon) (by decide)
  case off | on => exact fun _ _ hon => absurd (h.symm.trans hon) (by decide)
  case hook => intros; simp
  all_goals intros; rfl

theorem cancelSecondWrite_cr (s : State) (h : rngClockOn s = true) : (cancelSecondWrite s).cr = s.cr &&& 0x24 := by
  rw [cancelSecondWrite_on s h, emit_cr, crAfterWrite_ie_off]

/-- TRNG_CANCEL clears bits that are clear already in the driver state Disabled. -/
theorem trngCancel_disabled {s t : State} (hr : s.cr &&& ~~~crMask = 0) (hd : driverState s = .disabled)
    (ht : exec .trngCancel s = .next t) : t.cr = s.cr ∧ (threadStep t).cr = s.cr := by
  cases hc : rngClockOn s
  · rw [exec_trngCancel_off s hc] at ht; cases ht
    exact ⟨rfl, threadStep_gated_cr _ hc⟩
  · have hced : s.cr &&& 0x20 = s.cr := cr_of_disabled hr hd
    have hfirst : s.cr &&& 0x28 = s.cr := by rw [← hced, BitVec.and_assoc]; rfl
    have hsecond : s.cr &&& 0x24 = s.cr := by rw [← hced, BitVec.and_assoc]; rfl
    rw [exec_trngCancel_on s hc, hfirst] at ht; cases ht
    refine ⟨rfl, ?_⟩
    rw [threadStep_cancel _ rfl]
    exact (cancelSecondWrite_cr { s with cancelStep2 := true } hc).trans hsecond

theorem setLine_idem (b : Backend) (id : ClockId) (v : Bool) : setLine (setLine b id v) id v = setLine b id v := by
  unfold setLine
  cases lineIndex id <;> simp

theorem setLine_setRtcSrc (b : Backend) (id : ClockId) (v : Bool) (src : RtcSrc) :
    setLine { b with rtcSrc := src } id v = { setLine b id v with rtcSrc := src } := by
  unfold setLine
  cases lineIndex id <;> rfl

theorem enableLine_idem (id : ClockId) (s : State) : enableLine id (enableLine id s) = enableLine id s := by
  unfold enableLine
  split
  · simp only [setLine_setRtcSrc, setLine_idem]
  · simp only [setLine_idem]

theorem disableLine_idem (id : ClockId) (s : State) : disableLine id (disableLine id s) = disableLine id s := by
  simp [disableLine, setLine_idem]

theorem refuse_idem (r : Reason) (s : State) : refuse r (refuse r s) = refuse r s := rfl

theorem withHandle_idem (id : ClockId) {next : State → State} {s : State} (h : next (next s) = next s) :
    withHandle id next (withHandle id next s) = withHandle id next s := by
  unfold withHandle
  cases id.hasHandle with
  | true => exact h
  | false => exact refuse_idem _ s

/-- Settles O27: the second write of CR, or of the line, writes what is there. -/
theorem repeatedOperationsAreIdempotent : Obligations.RepeatedOperationsAreIdempotent := by
  refine ⟨fun s t u => trngGet_repeated, fun s t => trngCancel_disabled, fun id s t => ⟨?_, ?_⟩⟩
  · rintro ⟨⟩
    exact congrArg Host.Outcome.next (withHandle_idem id (enableLine_idem id s))
  · rintro ⟨⟩
    exact congrArg Host.Outcome.next (withHandle_idem id (disableLine_idem id s))

/-! ## The lost flags (20_memory.md R66, 70_reset_and_hazards.md R297) -/

/-- An SR write clears an error flag where the word carries 0, whatever SR holds by then. -/
theorem srAfterWrite_clears_flag {v : Word} {k : Nat} (sr : Word) (hk : k = seisBit ∨ k = ceisBit)
    (hv : v.getLsbD k = false) : (srAfterWrite sr v).getLsbD k = false := by
  rw [getLsbD_srAfterWrite, hv]
  rcases hk with rfl | rfl <;> simp [seisBit, ceisBit]

/-- ClearSR's first step: SR is read into the handler's latch, and the step that writes it back comes next
(20_memory.md R66). -/
def latchSr (write : HandlerStep) (s : State) : State := goTo write { s with hsr := s.sr &&& srMask }

theorem handlerStep_h2_on (s : State) (h : rngClockOn s = true) : handlerStep .h2 s = latchSr .h3 s := microH2_on s h

theorem handlerStep_h9_on (s : State) (h : rngClockOn s = true) : handlerStep .h9 s = latchSr .h10 s := microH9_on s h

/-- ClearSR with an error event between its read and its write: the write finds the latch from before the event. -/
theorem steps_clearSR_with_event {s : State} {read write : HandlerStep} {i : Instr} {k : Nat} {rest : List Slot}
    (hf : s.faults = []) (hc : s.cancelStep2 = false) (hp : s.phase = .running read)
    (hq : s.queue = .thread :: .atOnce (encode i) :: .thread :: rest) (hd : decode (encode i) = .ok i)
    (hi : agentOf i = .hardware) (event : ∀ u, exec i u = .next (setSrBit k true u))
    (latch : ∀ q, handlerStep read { s with queue := q } = latchSr write { s with queue := q }) :
    steps 3 s = .next (handlerStep write (setSrBit k true (latchSr write { s with queue := rest }))) := by
  have hread : step s = .next (latchSr write { s with queue := .atOnce (encode i) :: .thread :: rest }) :=
    (step_thread_running s read _ hf hc hp hq).trans (congrArg Host.Outcome.next (latch _))
  have hevent : step (latchSr write { s with queue := .atOnce (encode i) :: .thread :: rest }) =
      .next (setSrBit k true (latchSr write { s with queue := .thread :: rest })) :=
    (step_atOnce (latchSr write { s with queue := .atOnce (encode i) :: .thread :: rest }) _ i _ hf rfl hd
      (admitsNow_hardware _ hi)).trans (event _)
  have hwrite : step (setSrBit k true (latchSr write { s with queue := .thread :: rest })) =
      .next (handlerStep write (setSrBit k true (latchSr write { s with queue := rest }))) :=
    step_thread_running (setSrBit k true (latchSr write { s with queue := .thread :: rest })) write rest hf hc rfl rfl
  rw [steps_succ 2 _ _ hread, steps_succ 1 _ _ hevent, steps_succ 0 _ _ hwrite, steps_zero]

/-- Settles O53: H3 writes back the CEIS of H2's latch, and H10 the SEIS of H9's. -/
theorem anErrorBetweenReadAndWriteIsLost : Obligations.AnErrorBetweenReadAndWriteIsLost := by
  intro s rest hf hc (hon : rngClockOn s = true)
  constructor
  · intro hp hflag hq
    have hlatch : (putBit (s.sr &&& srMask) seisBit false).getLsbD ceisBit = false := by
      rw [getLsbD_putBit_ne _ _ _ _ (by decide), ceis_of_read, hflag]
    refine ⟨_, steps_clearSR_with_event hf hc hp hq (by decide) rfl (fun _ => rfl)
      (fun q => handlerStep_h2_on { s with queue := q } hon), ?_⟩
    rw [handlerStep, microH3_on _ (by exact hon)]
    exact ⟨rfl, srAfterWrite_clears_flag _ (.inr rfl) hlatch,
      srAfterWrite_clears_flag _ (.inl rfl) (getLsbD_putBit_self _ _ _ (by decide))⟩
  · intro hp hflag hq
    have hlatch : (putBit (s.sr &&& srMask) ceisBit false).getLsbD seisBit = false := by
      rw [getLsbD_putBit_ne _ _ _ _ (by decide), seis_of_read, hflag]
    refine ⟨_, steps_clearSR_with_event hf hc hp hq (by decide) rfl (fun _ => rfl)
      (fun q => handlerStep_h9_on { s with queue := q } hon), ?_⟩
    rw [handlerStep, microH10_on _ (by exact hon)]
    exact ⟨rfl, srAfterWrite_clears_flag _ (.inl rfl) hlatch,
      srAfterWrite_clears_flag _ (.inr rfl) (getLsbD_putBit_self _ _ _ (by decide))⟩

end Sys2Proof.Proofs

namespace Sys2Proof.Proofs

open Sys2Proof.Machine Sys2Proof.Safety

/-! ## Decoding in the order of its checks (30_encoding.md R92) -/

/-- Check 1: the opcode is not in the map. -/
theorem decode_reservedOpcode {o : Byte} (p : Byte) (d : Word) (ho : opcodeMap o.toNat = none) :
    decode (packCommand o p d) = .error .reservedOpcode := by
  simp [decode, ho]

/-- Check 2: a field the row's format does not use is not zero. -/
theorem decode_nonzeroField {o p : Byte} {d : Word} {row : OpcodeRow} (ho : opcodeMap o.toNat = some row)
    (hz : unusedFieldsZero row p d = false) : decode (packCommand o p d) = .error .nonzeroField := by
  simp [decode, ho, hz]

/-- Checks 3 to 5 are the row's own. -/
theorem decode_operand {o p : Byte} {d : Word} {row : OpcodeRow} (ho : opcodeMap o.toNat = some row)
    (hz : unusedFieldsZero row p d = true) : decode (packCommand o p d) = decodeOperand row p d := by
  simp [decode, ho, hz]

/-! ## What a row of the opcode map spells (30_encoding.md R88 to R90) -/

/-- The operand and the payload that spell an instruction of a row, by the row's format: the table of R88 as a
relation that the decoder and the encoder both meet. -/
inductive Spells : OpcodeRow → Byte → Word → Instr → Prop
  | n (i : Instr) : Spells (.n i) 0 0 i
  | i (build : ClockId → Instr) (id : ClockId) (h : id.hasHandle = true) : Spells (.i build) id.code 0 (build id)
  | x (last : Nat) (build : Nat → Instr) (idx : Nat) (h : idx ≤ last) (hbyte : idx < 256) :
      Spells (.x last build) (BitVec.ofNat 8 idx) 0 (build idx)
  | c (build : Nat → Instr) (k : Nat) (h : clientInRange k = true) : Spells (.c build) (BitVec.ofNat 8 k) 0 (build k)
  | b (build : Bool → Instr) (v : Bool) : Spells (.b build) (selectorOfBool v) 0 (build v)
  | p (build : Prescaler → Instr) (v : Prescaler) : Spells (.p build) (BitVec.ofNat 8 v.divisor) 0 (build v)
  | w (build : Word → Instr) (d : Word) : Spells (.w build) 0 d (build d)

/-- What an identity's own code decodes to turns on its handle alone. -/
theorem identityOperand_code (id : ClockId) (build : ClockId → Instr) :
    identityOperand id.code build = if id.hasHandle then .ok (build id) else .error .noHandle := by
  rw [identityOperand, clockIdOfCode_code]

theorem clientInRange_iff (k : Nat) : clientInRange k = true ↔ 1 ≤ k ∧ k ≤ 255 := by
  simp [clientInRange]

/-- What spells an instruction of a row leaves the unused fields zero. -/
theorem unusedFieldsZero_of_spells {row : OpcodeRow} {p : Byte} {d : Word} {i : Instr} (h : Spells row p d i) :
    unusedFieldsZero row p d = true := by
  cases h <;> rfl

/-- What spells an instruction of a row passes the row's operand checks, and is read as that instruction. -/
theorem decodeOperand_of_spells {row : OpcodeRow} {p : Byte} {d : Word} {i : Instr} (h : Spells row p d i) :
    decodeOperand row p d = .ok i := by
  cases h with
  | n | w => rfl
  | i build id h => rw [decodeOperand, identityOperand_code, if_pos h]
  | x last build idx h hbyte => rw [decodeOperand, toNat_operand idx hbyte, if_pos h]; rfl
  | c build k h =>
    have hbyte : k < 256 := Nat.lt_succ_of_le ((clientInRange_iff k).mp h).2
    rw [decodeOperand, toNat_operand k hbyte, if_pos h]; rfl
  | b build v => rw [decodeOperand, boolOfSelector_selectorOfBool]; rfl
  | p build v => rw [decodeOperand, toNat_operand _ (divisor_lt v), prescalerOfDivisor_divisor]; rfl

/-- The checks leave no other operand and payload for the instruction that is read. -/
theorem spells_of_decodeOperand {row : OpcodeRow} {p : Byte} {d : Word} {i : Instr}
    (hz : unusedFieldsZero row p d = true) (h : decodeOperand row p d = .ok i) : Spells row p d i := by
  cases row with
  | n j =>
    obtain ⟨rfl, rfl⟩ : p = 0 ∧ d = 0 := by simpa [unusedFieldsZero] using hz
    cases h; exact .n _
  | i build =>
    obtain rfl : d = 0 := eq_of_beq hz
    obtain ⟨id, hid, hh, rfl⟩ := identityOperand_ok p build i h
    rw [← code_of_clockIdOfCode p id hid]; exact .i build id hh
  | x last build =>
    obtain rfl : d = 0 := eq_of_beq hz
    obtain ⟨hle, ⟨⟩⟩ := Option.ite_none_right_eq_some.mp (rangedOperand_ok _ _ h)
    simpa using Spells.x last build p.toNat hle p.isLt
  | c build =>
    obtain rfl : d = 0 := eq_of_beq hz
    obtain ⟨hk, ⟨⟩⟩ := Option.ite_none_right_eq_some.mp (rangedOperand_ok _ _ h)
    simpa using Spells.c build p.toNat hk
  | b build =>
    obtain rfl : d = 0 := eq_of_beq hz
    obtain ⟨v, hv, rfl⟩ := Option.map_eq_some_iff.mp (rangedOperand_ok _ _ h)
    rw [← selectorOfBool_of_boolOfSelector p v hv]; exact .b build v
  | p build =>
    obtain rfl : d = 0 := eq_of_beq hz
    obtain ⟨v, hv, rfl⟩ := Option.map_eq_some_iff.mp (rangedOperand_ok _ _ h)
    simpa [divisor_of_prescalerOfDivisor _ _ hv] using Spells.p build v
  | w build =>
    obtain rfl : p = 0 := eq_of_beq hz
    cases h; exact .w build d

theorem decode_of_spells {o p : Byte} {d : Word} {row : OpcodeRow} {i : Instr} (ho : opcodeMap o.toNat = some row)
    (h : Spells row p d i) : decode (packCommand o p d) = .ok i := by
  rw [decode_operand ho (unusedFieldsZero_of_spells h), decodeOperand_of_spells h]

theorem spells_of_decode {w : Command} {i : Instr} (h : decode w = .ok i) :
    ∃ row, opcodeMap (opcodeField w).toNat = some row ∧ Spells row (operandField w) (payloadField w) i := by
  obtain ⟨row, ho, hz, hd⟩ := decode_ok w i h
  exact ⟨row, ho, spells_of_decodeOperand hz hd⟩

/-- Each well-formed instruction is read back through what its operand and payload spell in its opcode's row. -/
theorem decode_encode (i : Instr) (h : i.wellFormed = true) : decode (encode i) = .ok i := by
  cases i with
  | clkIsEnabled id | clkEnable id | clkDisable id | clkGetFrequency id | clkConfigure id =>
    exact decode_of_spells rfl (.i _ id h)
  | regGpioHandle idx | regPeriphHandle idx =>
    have hle := of_decide_eq_true h
    exact decode_of_spells rfl (.x _ _ idx hle (by omega))
  | trngSetClient c => exact decode_of_spells rfl (.c _ c h)
  | clientReturn r =>
    have hs := Spells.b (fun sel => .clientReturn (answerOfBool sel)) (boolOfAnswer r)
    rw [answerOfBool_boolOfAnswer] at hs
    exact decode_of_spells rfl hs
  | hwSeedCurrent v | hwClockCurrent v | envSetTimpre v => exact decode_of_spells rfl (.b _ v)
  | envSetApb1Presc v | envSetApb2Presc v => exact decode_of_spells rfl (.p _ v)
  | hwDataReady d | envSetSysfreq d => exact decode_of_spells rfl (.w _ d)
  | trngGet | trngCancel | trngIsEnabledClock | trngEnableClock | trngDisableClock | irqEnter | seqNext | hwSeedError
  | hwClockError => exact decode_of_spells rfl (.n _)

/-- Row by row, what spells an instruction is the operand and the payload that `encode` packs for it. -/
theorem encode_of_spells {o p : Byte} {d : Word} {row : OpcodeRow} {i : Instr} (ho : opcodeMap o.toNat = some row)
    (h : Spells row p d i) : encode i = packCommand o p d := by
  generalize hn : o.toNat = n at ho
  obtain rfl : o = BitVec.ofNat 8 n := by simp [← hn]
  unfold opcodeMap at ho
  split at ho <;> cases ho
  case h_16 => cases h with
    | b _ v => exact congrArg (fun sel => packCommand 0x42 (selectorOfBool sel) 0) (boolOfAnswer_answerOfBool v)
  all_goals cases h; rfl

/-- Settles O1: every well-formed instruction's word is spelled in its opcode's row. -/
theorem decodeOfEncodeIsTheInstruction : Obligations.DecodeOfEncodeIsTheInstruction := decode_encode

/-- Settles O2: a word is its three fields packed, and what they spell in the opcode's row encodes to them. -/
theorem encodeOfDecodeIsTheWord : Obligations.EncodeOfDecodeIsTheWord := by
  intro w i h
  obtain ⟨row, ho, hs⟩ := spells_of_decode h
  rw [encode_of_spells ho hs, packCommand_fields]

/-- Settles O3, by evaluating the decoder on each of the ten words. -/
theorem wordsOfTheSyntaxTableDecode : Obligations.WordsOfTheSyntaxTableDecode := by
  unfold Obligations.WordsOfTheSyntaxTableDecode
  decide

/-! ## The order of the checks, by format (30_encoding.md R88, R92) -/

/-- The letter of a row's format (30_encoding.md R88). -/
def formatLetter : OpcodeRow → Char
  | .n _ => 'N'
  | .i _ => 'I'
  | .x _ _ => 'X'
  | .c _ => 'C'
  | .b _ => 'B'
  | .p _ => 'P'
  | .w _ => 'W'

/-- Every opcode listed under a format has a row of that format. -/
theorem opcodeMap_of_formatOpcodes :
    ∀ f ∈ formatOpcodes, ∀ n ∈ f.2, (opcodeMap n).map formatLetter = some f.1 := by decide

/-- Every opcode with a row is listed under a format. -/
theorem mem_formatOpcodes_of_opcodeMap {n : Nat} {row : OpcodeRow} (h : opcodeMap n = some row) :
    ∃ f ∈ formatOpcodes, n ∈ f.2 := by
  unfold opcodeMap at h
  split at h <;> cases h <;> decide

/-- The fields a format does not use: the payload outside format W, the operand in formats N and W. -/
theorem unusedFieldsZero_iff (row : OpcodeRow) (p : Byte) (d : Word) :
    unusedFieldsZero row p d = true ↔
      (formatLetter row ≠ 'W' → d = 0) ∧ (formatLetter row = 'N' ∨ formatLetter row = 'W' → p = 0) := by
  cases row <;> simp [unusedFieldsZero, formatLetter, and_comm]

theorem hasHandle_iff (id : ClockId) : id.hasHandle = true ↔ id ≠ .ahb2 .otgfs := by
  rcases id with _ | ⟨_ | _⟩ | _ | _ | _ | _ | _ <;> simp [ClockId.hasHandle]

theorem clockIdOfCode_eq_none {p : Byte} (h : ∀ id : ClockId, id.code ≠ p) : clockIdOfCode p = none :=
  Option.eq_none_iff_forall_ne_some.mpr fun id hid => h id (code_of_clockIdOfCode p id hid)

theorem boolOfSelector_isSome_iff (n : Nat) : (boolOfSelector n).isSome ↔ n ≤ 1 := by
  unfold boolOfSelector
  split
  · decide
  · decide
  · next h0 h1 => simpa using Nat.one_lt_iff_ne_zero_and_ne_one.mpr ⟨h0, h1⟩

theorem prescalerOfDivisor_isSome_iff (n : Nat) : (prescalerOfDivisor n).isSome ↔ n ∈ [1, 2, 4, 8, 16] := by
  unfold prescalerOfDivisor
  split
  case h_6 => simp_all
  all_goals decide

/-- The outcome of a range check whose range is `c`. -/
theorem rangedOperand_outcome {c : Prop} [Decidable c] {j : Option Instr} (h : j.isSome ↔ c) :
    if c then ∃ i, rangedOperand j = .ok i else rangedOperand j = .error .operandRange := by
  cases j with
  | none => rw [if_neg (by simpa using h)]; rfl
  | some i => rw [if_pos (h.mp rfl)]; exact ⟨i, rfl⟩

theorem clientInRange_toNat_iff (p : Byte) : clientInRange p.toNat = true ↔ p ≠ 0 := by
  rw [clientInRange_iff, Ne, ← BitVec.toNat_inj]
  have hlt := p.isLt
  have hzero : (0 : Byte).toNat = 0 := rfl
  omega

/-- The row of an opcode listed under a format. -/
theorem opcodeMap_of_listed {c : Char} {ops : List Nat} {n : Nat} (hf : (c, ops) ∈ formatOpcodes) (hn : n ∈ ops) :
    ∃ row, opcodeMap n = some row ∧ formatLetter row = c :=
  Option.map_eq_some_iff.mp (opcodeMap_of_formatOpcodes _ hf n hn)

theorem decode_unlisted {o : Byte} (p : Byte) (d : Word) (h : ∀ f ∈ formatOpcodes, o.toNat ∉ f.2) :
    decode (packCommand o p d) = .error .reservedOpcode := by
  refine decode_reservedOpcode p d (Option.eq_none_iff_forall_ne_some.mpr fun row ho => ?_)
  obtain ⟨f, hf, hn⟩ := mem_formatOpcodes_of_opcodeMap ho
  exact h f hf hn

theorem decode_unused {o p : Byte} {d : Word} {c : Char} {ops : List Nat} (hf : (c, ops) ∈ formatOpcodes)
    (hn : o.toNat ∈ ops) (h : (c ≠ 'W' ∧ d ≠ 0) ∨ ((c = 'N' ∨ c = 'W') ∧ p ≠ 0)) :
    decode (packCommand o p d) = .error .nonzeroField := by
  obtain ⟨row, ho, rfl⟩ := opcodeMap_of_listed hf hn
  refine decode_nonzeroField ho (Bool.eq_false_iff.mpr fun hz => ?_)
  obtain ⟨hd, hp⟩ := (unusedFieldsZero_iff row p d).mp hz
  rcases h with ⟨hl, hne⟩ | ⟨hl, hne⟩
  · exact hne (hd hl)
  · exact hne (hp hl)

/-! The rows of the formats (30_encoding.md R89). -/

theorem opcodeMap_formatN :
    ∀ n ∈ [0x20, 0x21, 0x23, 0x24, 0x25, 0x40, 0x41, 0x81, 0x82], ∃ i, opcodeMap n = some (.n i) := by
  simp [opcodeMap]

theorem opcodeMap_formatI : ∀ n ∈ [0x01, 0x02, 0x03, 0x04, 0x05], ∃ build, opcodeMap n = some (.i build) := by
  simp [opcodeMap]

theorem opcodeMap_formatB : ∀ n ∈ [0x42, 0x83, 0x84, 0x93], ∃ build, opcodeMap n = some (.b build) := by
  simp [opcodeMap]

theorem opcodeMap_formatP : ∀ n ∈ [0x91, 0x92], ∃ build, opcodeMap n = some (.p build) := by
  simp [opcodeMap]

theorem opcodeMap_formatW : ∀ n ∈ [0x80, 0x90], ∃ build, opcodeMap n = some (.w build) := by
  simp [opcodeMap]

/-! What the operand checks decide in each format once the unused fields are zero (30_encoding.md R88). -/

theorem identityOperand_reserved {p : Byte} (build : ClockId → Instr) (h : ∀ id : ClockId, id.code ≠ p) :
    identityOperand p build = .error .reservedIdentity := by
  rw [identityOperand, clockIdOfCode_eq_none h]

/-- Format B: the selector is 0 or 1. -/
theorem decode_formatB {o : Byte} {build : Bool → Instr} (p : Byte) (ho : opcodeMap o.toNat = some (.b build)) :
    if p.toNat ≤ 1 then ∃ i, decode (packCommand o p 0) = .ok i
    else decode (packCommand o p 0) = .error .operandRange := by
  rw [decode_operand ho rfl]
  exact rangedOperand_outcome (by rw [Option.isSome_map, boolOfSelector_isSome_iff])

/-- Format P: the operand is a divisor. -/
theorem decode_formatP {o : Byte} {build : Prescaler → Instr} (p : Byte) (ho : opcodeMap o.toNat = some (.p build)) :
    if p.toNat ∈ [1, 2, 4, 8, 16] then ∃ i, decode (packCommand o p 0) = .ok i
    else decode (packCommand o p 0) = .error .operandRange := by
  rw [decode_operand ho rfl]
  exact rangedOperand_outcome (by rw [Option.isSome_map, prescalerOfDivisor_isSome_iff])

/-- Format X: the operand is an index up to the row's last. -/
theorem decode_formatX {o : Byte} {last : Nat} {build : Nat → Instr} (p : Byte)
    (ho : opcodeMap o.toNat = some (.x last build)) :
    if p.toNat ≤ last then ∃ i, decode (packCommand o p 0) = .ok i
    else decode (packCommand o p 0) = .error .operandRange := by
  rw [decode_operand ho rfl]
  exact rangedOperand_outcome (by simp)

/-- Format C: 0 is no ClientId. -/
theorem decode_formatC {o : Byte} {build : Nat → Instr} (p : Byte) (ho : opcodeMap o.toNat = some (.c build)) :
    if p ≠ 0 then ∃ i, decode (packCommand o p 0) = .ok i
    else decode (packCommand o p 0) = .error .operandRange := by
  rw [decode_operand ho rfl]
  exact rangedOperand_outcome (by simp [clientInRange_toNat_iff])

/-- Settles O4: an opcode with no row, a non-zero unused field, and the outcome of each format's operand checks. -/
theorem decodeChecksInOrder : Obligations.DecodeChecksInOrder := by
  intro o p d
  refine ⟨decode_unlisted p d, ?_, ?_, ?_, ?_, ?_, ?_, ?_, ?_, ?_⟩
  · rintro ⟨⟨c, ops⟩, hf, hn, h⟩
    exact decode_unused hf hn h
  · rintro hn rfl
    obtain ⟨build, ho⟩ := opcodeMap_formatI _ hn
    rw [decode_operand ho rfl, decodeOperand]
    refine ⟨identityOperand_reserved build, ?_, ?_⟩
    · rintro rfl
      exact identityOperand_code (.ahb2 .otgfs) build
    · rintro id rfl hid
      exact ⟨build id, by rw [identityOperand_code, if_pos ((hasHandle_iff id).mpr hid)]⟩
  · rintro hn rfl
    exact decode_formatX p (by rw [List.mem_singleton.mp hn]; rfl)
  · rintro hn rfl
    exact decode_formatX p (by rw [List.mem_singleton.mp hn]; rfl)
  · rintro hn rfl
    rw [← ite_not]
    exact decode_formatC p (by rw [List.mem_singleton.mp hn]; rfl)
  · rintro hn rfl
    obtain ⟨build, ho⟩ := opcodeMap_formatB _ hn
    exact decode_formatB p ho
  · rintro hn rfl
    obtain ⟨build, ho⟩ := opcodeMap_formatP _ hn
    exact decode_formatP p ho
  · rintro hn rfl rfl
    obtain ⟨i, ho⟩ := opcodeMap_formatN _ hn
    exact ⟨i, decode_operand ho rfl⟩
  · rintro hn rfl
    obtain ⟨build, ho⟩ := opcodeMap_formatW _ hn
    exact ⟨build d, decode_operand ho rfl⟩

/-! ## A word that spells no operation (30_encoding.md R92, 60_exceptions.md R256) -/

/-- A word that does not decode is refused at any boundary, whatever step the thread has outstanding. -/
theorem step_atOnce_refused (s : State) (w : Command) (r : Reason) (rest : List Slot) (hf : s.faults = [])
    (hq : s.queue = .atOnce w :: rest) (hd : decode w = .error r) :
    step s = .next (refuse r { s with queue := rest }) := by
  simp [step, nextTurn, hf, hq, issueIfAdmitted, hd]

/-- In program order a word that does not decode is refused once the thread is free. -/
theorem step_inOrder_refused (s : State) (w : Command) (r : Reason) (rest : List Slot) (hf : s.faults = [])
    (hq : s.queue = .inOrder w :: rest) (hd : decode w = .error r) (hb : threadBusy s = false) :
    step s = .next (refuse r { s with queue := rest }) := by
  simp [step, nextTurn, hf, hq, issueWord, hd, hb]

/-- Settles O8: both ways a word is issued end in `refuse`, which writes the mark alone. -/
theorem stepRefusesAWordThatDoesNotDecode : Obligations.StepRefusesAWordThatDoesNotDecode := by
  rintro s w r rest hf hd (hq | ⟨hq, hb⟩)
  · exact step_atOnce_refused s w r rest hf hq hd
  · exact step_inOrder_refused s w r rest hf hq hd hb

end Sys2Proof.Proofs

namespace Sys2Proof.Proofs

open Sys2Proof.Machine Sys2Proof.Safety

/-! ## The clock-handle operations on an identity with a handle (41_clock_handle.md) -/

theorem withHandle_handled {id : ClockId} (h : id.hasHandle = true) (next : State → State) (s : State) :
    withHandle id next s = next s := if_pos h

theorem exec_clkIsEnabled {id : ClockId} (h : id.hasHandle = true) (s : State) :
    exec (.clkIsEnabled id) s = .next (reportLine .clkIsEnabled id s) :=
  congrArg Host.Outcome.next (withHandle_handled h _ s)

theorem exec_clkEnable {id : ClockId} (h : id.hasHandle = true) (s : State) :
    exec (.clkEnable id) s = .next (enableLine id s) :=
  congrArg Host.Outcome.next (withHandle_handled h _ s)

theorem exec_clkDisable {id : ClockId} (h : id.hasHandle = true) (s : State) :
    exec (.clkDisable id) s = .next (disableLine id s) :=
  congrArg Host.Outcome.next (withHandle_handled h _ s)

theorem exec_clkGetFrequency {id : ClockId} (h : id.hasHandle = true) (s : State) :
    exec (.clkGetFrequency id) s = .next (reportFrequency id s) :=
  congrArg Host.Outcome.next (withHandle_handled h _ s)

theorem exec_clkConfigure {id : ClockId} (h : id.hasHandle = true) (s : State) :
    exec (.clkConfigure id) s = .next (refuse .internalOnly s) :=
  congrArg Host.Outcome.next (withHandle_handled h _ s)

/-- Settles O24: the operation is `reportLine`, one entry of `out`. -/
theorem clkIsEnabledEmitsTheBit : Obligations.ClkIsEnabledEmitsTheBit :=
  fun _ s h => exec_clkIsEnabled h s

/-! ## The line writes (41_clock_handle.md R111, R113) -/

theorem lineOn_enableLine_self {id : ClockId} (h : id.hasHandle = true) (s : State) :
    lineOn (enableLine id s).backend id = true := lineOn_setLine_self _ id true h

/-- The choice of the RTC source is no line, so only the identity's own line changes. -/
theorem lineOn_enableLine_ne {id other : ClockId} (h : other ≠ id) (s : State) :
    lineOn (enableLine id s).backend other = lineOn s.backend other := by
  rw [enableLine_backend, lineOn_setLine_ne _ id other true h]
  apply lineOn_congr
  split <;> rfl

theorem enableLine_rtcSrc (id : ClockId) (s : State) :
    (enableLine id s).backend.rtcSrc = if id = .rtc then .lsi else s.backend.rtcSrc := by
  rw [enableLine_backend, setLine_rtcSrc]
  split <;> rfl

/-- Settles O25: the bound backend is the one `enableLine` leaves. -/
theorem clkEnableSetsTheLine : Obligations.ClkEnableSetsTheLine := fun id s h =>
  ⟨(enableLine id s).backend, exec_clkEnable h s, lineOn_enableLine_self h s, fun _ hne => lineOn_enableLine_ne hne s,
    enableLine_rtcSrc id s, enableLine_keeps_clockConfiguration id s⟩

/-- Settles O26: the bound backend is the line write alone, on rtc too. -/
theorem clkDisableClearsTheLine : Obligations.ClkDisableClearsTheLine := fun id s h =>
  ⟨setLine s.backend id false, exec_clkDisable h s, lineOn_setLine_self _ id false h,
    fun other hne => lineOn_setLine_ne _ id other false hne, setLine_rtcSrc _ id false,
    disableLine_keeps_clockConfiguration id s⟩

/-! ## The frequency engine (41_clock_handle.md R115 to R120) -/

/-- Only rtc and pwr have no frequency. -/
theorem frequencyOf_isSome {id : ClockId} (hrtc : id ≠ .rtc) (hpwr : id ≠ .pwr) (b : Backend) :
    ∃ f, frequencyOf id b = some f := by
  cases id with
  | ahb1 p => exact ⟨_, rfl⟩
  | ahb2 p => exact ⟨_, rfl⟩
  | ahb3 p => exact ⟨_, rfl⟩
  | apb1 p => cases p <;> exact ⟨_, rfl⟩
  | apb2 p => exact ⟨_, rfl⟩
  | rtc => exact absurd rfl hrtc
  | pwr => exact absurd rfl hpwr

/-! The bus family of each constructor (30_encoding.md R86). -/

@[simp] theorem family_ahb1 (p : Ahb1) : (ClockId.ahb1 p).family = 0 := by cases p <;> rfl
@[simp] theorem family_ahb2 (p : Ahb2) : (ClockId.ahb2 p).family = 1 := by cases p <;> rfl
@[simp] theorem family_ahb3 (p : Ahb3) : (ClockId.ahb3 p).family = 2 := by cases p; rfl
@[simp] theorem family_apb1 (p : Apb1) : (ClockId.apb1 p).family = 3 := by cases p <;> rfl
@[simp] theorem family_apb2 (p : Apb2) : (ClockId.apb2 p).family = 4 := by cases p <;> rfl
@[simp] theorem family_rtc : ClockId.rtc.family = 5 := rfl
@[simp] theorem family_pwr : ClockId.pwr.family = 6 := rfl

theorem family_eq_three {id : ClockId} (h : id.family = 3) : ∃ p, id = .apb1 p := by
  cases id with
  | apb1 p => exact ⟨p, rfl⟩
  | _ => simp at h

theorem family_eq_four {id : ClockId} (h : id.family = 4) : ∃ p, id = .apb2 p := by
  cases id with
  | apb2 p => exact ⟨p, rfl⟩
  | _ => simp at h

/-- An AHB line runs at the system frequency (R116). -/
theorem frequencyOf_ahb {id : ClockId} (h : id.family.toNat ≤ 2) (b : Backend) :
    frequencyOf id b = some b.sysFreq.toNat := by
  cases id with
  | ahb1 p | ahb2 p | ahb3 p => rfl
  | _ => simp at h

/-- An APB1 line but the timer's is divided by the bus's prescaler (R117). -/
theorem frequencyOf_apb1 {p : Apb1} (h : p ≠ .tim2) (b : Backend) :
    frequencyOf (.apb1 p) b = some (b.sysFreq.toNat / b.apb1Presc.divisor) := by
  cases p with
  | tim2 => exact absurd rfl h
  | _ => rfl

/-- The timer's rule with the flag clear, by the prescaler's divisor (R118). -/
theorem timerFreq_clear (sys : Nat) (p : Prescaler) :
    timerFreq sys p false = if p.divisor ∈ [1, 2] then sys else sys / p.divisor * 2 := by
  cases p <;> rfl

/-- The timer's rule with the flag set, by the prescaler's divisor (R119). -/
theorem timerFreq_set (sys : Nat) (p : Prescaler) :
    timerFreq sys p true = if p.divisor ∈ [1, 2, 4] then sys else sys / p.divisor * 4 := by
  cases p <;> rfl

theorem reportFrequency_some {id : ClockId} {s : State} {f : Nat} (h : frequencyOf id s.backend = some f) :
    reportFrequency id s = emit .clkGetFrequency (.frequency f) s := by
  rw [reportFrequency, h]

theorem reportFrequency_none {id : ClockId} {s : State} (h : frequencyOf id s.backend = none) :
    reportFrequency id s = raiseFault (.notImplemented id) s := by
  rw [reportFrequency, h]

/-- Settles O28: the frequency is there, and each clause is the engine's rule for its bus. -/
theorem clkGetFrequencyEmitsTheFrequency : Obligations.ClkGetFrequencyEmitsTheFrequency := by
  intro id s hh hrtc hpwr
  obtain ⟨f, hf⟩ := frequencyOf_isSome hrtc hpwr s.backend
  have is_f : ∀ {g : Nat}, frequencyOf id s.backend = some g → f = g := fun hg => Option.some.inj (hf.symm.trans hg)
  refine ⟨f, ?_, fun hfam => is_f (frequencyOf_ahb hfam _), fun hfam hne => ?_, fun hfam => ?_, ?_, ?_⟩
  · rw [exec_clkGetFrequency hh, reportFrequency_some hf]; rfl
  · obtain ⟨p, rfl⟩ := family_eq_three hfam
    exact is_f (frequencyOf_apb1 (fun hp => hne (congrArg _ hp)) _)
  · obtain ⟨p, rfl⟩ := family_eq_four hfam
    exact is_f rfl
  · rintro rfl hflag
    rw [← timerFreq_clear, ← hflag]
    exact is_f rfl
  · rintro rfl hflag
    rw [← timerFreq_set, ← hflag]
    exact is_f rfl

/-- Settles O29: neither has a frequency, and the fault is the first of the run. -/
theorem rtcAndPwrHaveNoFrequency : Obligations.RtcAndPwrHaveNoFrequency := by
  intro id s hid hf
  obtain ⟨hh, hnone⟩ : id.hasHandle = true ∧ frequencyOf id s.backend = none := by
    rcases hid with rfl | rfl <;> exact ⟨rfl, rfl⟩
  exact ⟨by rw [exec_clkGetFrequency hh, reportFrequency_none hnone, raiseFault_first _ hf], rfl, rfl⟩

/-! ## Bounds and table (41_clock_handle.md R121, R122) -/

/-- The floor quotient comes first, so a multiplier up to the divisor cannot exceed the dividend. -/
theorem div_mul_le_of_le (n : Nat) {d m : Nat} (h : m ≤ d) : n / d * m ≤ n :=
  (Nat.mul_le_mul_left _ h).trans (Nat.div_mul_le_self n d)

theorem timerFreq_le (sys : Nat) (p : Prescaler) (timpre : Bool) : timerFreq sys p timpre ≤ sys := by
  cases timpre with
  | false =>
    cases p with
    | by1 | by2 => exact le_rfl
    | by4 | by8 | by16 => exact div_mul_le_of_le sys (by decide)
  | true =>
    cases p with
    | by1 | by2 | by4 => exact le_rfl
    | by8 | by16 => exact div_mul_le_of_le sys (by decide)

theorem frequencyOf_le {id : ClockId} {b : Backend} {f : Nat} (h : frequencyOf id b = some f) :
    f ≤ b.sysFreq.toNat := by
  cases id with
  | ahb1 p | ahb2 p | ahb3 p => cases h; exact le_rfl
  | apb1 p =>
    by_cases hp : p = .tim2
    · subst hp; cases h; exact timerFreq_le _ _ _
    · rw [frequencyOf_apb1 hp] at h; cases h; exact Nat.div_le_self _ _
  | apb2 p => cases h; exact Nat.div_le_self _ _
  | rtc | pwr => cases h

/-- Settles O30: the system frequency is a word of FREQ_WIDTH bits. -/
theorem frequencyIsAtMostTheSystemFrequency : Obligations.FrequencyIsAtMostTheSystemFrequency :=
  fun _ b _ h => ⟨frequencyOf_le h, (frequencyOf_le h).trans_lt b.sysFreq.isLt⟩

theorem divisor_dvd_sixteen (p : Prescaler) : p.divisor ∣ 16 := by cases p <;> decide

/-- With a system frequency that every divisor divides, the timer's rule scales: no floor loses anything. -/
theorem timerFreq_sixteen_mul (k : Nat) (p : Prescaler) (timpre : Bool) :
    timerFreq (16 * k) p timpre = timerFreq 16 p timpre * k := by
  cases timpre <;> cases p <;> simp only [timerFreq, Prescaler.divisor] <;> omega

/-- Settles O31: every divisor divides 16, so the quotients are exact and the timer's table is its rule at 16. -/
theorem frequencyTableForMultiplesOfSixteen : Obligations.FrequencyTableForMultiplesOfSixteen := by
  intro b k hk
  refine ⟨fun p hp => ⟨_, frequencyOf_apb1 hp b, ?_⟩, ?_⟩
  · rw [hk, Nat.div_mul_cancel ((divisor_dvd_sixteen _).mul_right k)]
  · rw [frequencyOf, hk, timerFreq_sixteen_mul]
    cases b.timpre <;> cases b.apb1Presc <;> rfl

/-- The frequency is a function of the clock configuration. -/
theorem frequencyOf_congr {b c : Backend} (h : SameClockConfiguration b c) (id : ClockId) :
    frequencyOf id b = frequencyOf id c := by
  obtain ⟨hsys, hapb1, hapb2, htimpre⟩ := h
  unfold frequencyOf
  rw [hsys, hapb1, hapb2, htimpre]

/-- Settles O32: the line writes keep the clock configuration. -/
theorem frequencyIgnoresTheEnableBits : Obligations.FrequencyIgnoresTheEnableBits := by
  rintro id other s t (he | he)
  · exact frequencyOf_congr (exec_keeps_clockConfiguration he nofun) id
  · exact frequencyOf_congr (exec_keeps_clockConfiguration he nofun) id

/-! ## CLK_CONFIGURE (41_clock_handle.md R123, R124) -/

theorem configure_rng (s : State) : configure (.ahb2 .rng) s = rngReconfigure s := if_pos rfl

theorem configure_other {id : ClockId} (h : id ≠ .ahb2 .rng) (s : State) : configure id s = s := if_neg h

/-- Settles O33: the command is refused after the handle check; the semantics is the hook on the RNG line alone. -/
theorem clkConfigureIsInternal : Obligations.ClkConfigureIsInternal := by
  refine ⟨fun _ s h => exec_clkConfigure h s, fun _ s h => configure_other h s, fun _ => rfl, fun s h => ?_,
    fun s b rest h => ?_⟩
  · rw [configure_rng, rngReconfigure_default s h]; rfl
  · rw [configure_rng, rngReconfigure_listed s b rest h]

end Sys2Proof.Proofs

namespace Sys2Proof.Proofs

open Sys2Proof.Machine Sys2Proof.Safety

/-! ## The registries as lists (42_registries.md R150, R151) -/

/-- The identities the GPIO registry names, in the order of their indices. -/
def gpioHandles : List ClockId := (List.range 8).filterMap gpioReg

/-- The identities the peripheral registry names, in the order of their indices. -/
def periphHandles : List ClockId := (List.range 16).filterMap periphReg

/-- The GPIO registry has no index beyond its list. -/
theorem gpioReg_eq_getElem? : ∀ k : Nat, gpioReg k = gpioHandles[k]?
  | 0 | 1 | 2 | 3 | 4 | 5 | 6 | 7 => rfl
  | _ + 8 => rfl

/-- The peripheral registry has no index beyond its list. -/
theorem periphReg_eq_getElem? : ∀ k : Nat, periphReg k = periphHandles[k]?
  | 0 | 1 | 2 | 3 | 4 | 5 | 6 | 7 | 8 | 9 | 10 | 11 | 12 | 13 | 14 | 15 => rfl
  | _ + 16 => rfl

theorem mem_gpioHandles_iff (id : ClockId) : id ∈ gpioHandles ↔ ∃ k, gpioReg k = some id := by
  simp only [gpioReg_eq_getElem?, List.mem_iff_getElem?]

theorem mem_periphHandles_iff (id : ClockId) : id ∈ periphHandles ↔ ∃ k, periphReg k = some id := by
  simp only [periphReg_eq_getElem?, List.mem_iff_getElem?]

/-! ## The identities with a handle (42_registries.md R155) -/

/-- `handledIds` lists the two registries together, each entry once. -/
theorem handledIds_perm_registries : handledIds.Perm (gpioHandles ++ periphHandles) := by decide

/-- An identity with a handle has an enable bit, whose place is its place in `handledIds`. -/
theorem mem_handledIds_iff (id : ClockId) : id ∈ handledIds ↔ id.hasHandle = true := by
  constructor
  · have hall : ∀ i ∈ handledIds, i.hasHandle = true := by decide
    exact hall id
  · intro h
    rw [← lineIndex_isSome] at h
    obtain ⟨k, hk⟩ := Option.isSome_iff_exists.mp h
    exact List.mem_of_getElem? (handledIds_lineIndex id k hk)

theorem hasHandle_iff_mem_registry (id : ClockId) :
    id.hasHandle = true ↔ (∃ k, gpioReg k = some id) ∨ ∃ k, periphReg k = some id := by
  rw [← mem_handledIds_iff, handledIds_perm_registries.mem_iff, List.mem_append, mem_gpioHandles_iff,
    mem_periphHandles_iff]

/-- A CLK_* word that names an identity with no handle fails check 4 of 30_encoding.md R92. -/
theorem decode_noHandle {id : ClockId} (h : id.hasHandle = false) {o : Byte} {build : ClockId → Instr}
    (ho : opcodeMap o.toNat = some (.i build)) : decode (packCommand o id.code 0) = .error .noHandle := by
  rw [decode_operand ho rfl, decodeOperand, identityOperand_code, if_neg (Bool.eq_false_iff.mp h)]

/-- Settles O5: `handledIds` is a rearrangement of the two registries, and the enable bits show that it is complete. -/
theorem handledIsTheImageOfTheRegistries : Obligations.HandledIsTheImageOfTheRegistries := by
  refine ⟨hasHandle_iff_mem_registry, hasHandle_iff, ⟨by decide, rfl, mem_handledIds_iff⟩, fun id h o hn => ?_⟩
  obtain ⟨build, ho⟩ := opcodeMap_formatI _ hn
  exact decode_noHandle h ho

/-! ## The lookups (42_registries.md R152, R153) -/

/-- The codes of the GPIO registry (42_registries.md R150). -/
theorem gpioHandles_codes :
    gpioHandles.map ClockId.code = [0x02, 0x03, 0x04, 0x05, 0x06, 0x07, 0x08, 0x09] := by decide

/-- The codes of the peripheral registry (42_registries.md R151). -/
theorem periphHandles_codes :
    periphHandles.map ClockId.code =
      [0x81, 0x65, 0x66, 0x00, 0x01, 0x40, 0x64, 0xC0, 0xA0, 0x82, 0x63, 0x60, 0x20, 0x80, 0x61, 0x62] := by decide

/-- A lookup that finds an identity emits its code. -/
theorem reportHandle_of_code {entry : Option ClockId} {code : Byte} (h : entry.map ClockId.code = some code)
    (m : Emitter) (s : State) : reportHandle m entry s = emit m (.identity code) s := by
  obtain ⟨id, rfl, rfl⟩ := Option.map_eq_some_iff.mp h
  rfl

theorem exec_regGpioHandle {k : Nat} {code : Byte} (h : (gpioHandles.map ClockId.code)[k]? = some code) (s : State) :
    exec (.regGpioHandle k) s = .next (emit .regGpioHandle (.identity code) s) := by
  rw [List.getElem?_map, ← gpioReg_eq_getElem?] at h
  exact congrArg Host.Outcome.next (reportHandle_of_code h _ s)

theorem exec_regPeriphHandle {k : Nat} {code : Byte} (h : (periphHandles.map ClockId.code)[k]? = some code)
    (s : State) : exec (.regPeriphHandle k) s = .next (emit .regPeriphHandle (.identity code) s) := by
  rw [List.getElem?_map, ← periphReg_eq_getElem?] at h
  exact congrArg Host.Outcome.next (reportHandle_of_code h _ s)

/-- A format-X word with an index past the row's last is refused (30_encoding.md R92 item 5). -/
theorem decode_index_past_last {o p : Byte} {last : Nat} {build : Nat → Instr}
    (ho : opcodeMap o.toNat = some (.x last build)) (h : last < p.toNat) :
    decode (packCommand o p 0) = .error .operandRange := by
  have houtcome := decode_formatX p ho
  rwa [if_neg (not_le.mpr h)] at houtcome

/-- Settles O34: a lookup emits the code at its index in the registry's list, and the decoder lets no other index by. -/
theorem registryLookupsEmitTheIdentity : Obligations.RegistryLookupsEmitTheIdentity := by
  refine ⟨fun k code s => ⟨fun h => ?_, fun h => ?_⟩, fun _ => decode_index_past_last rfl,
    fun _ => decode_index_past_last rfl⟩
  · rw [← gpioHandles_codes] at h
    exact exec_regGpioHandle h s
  · rw [← periphHandles_codes] at h
    exact exec_regPeriphHandle h s

end Sys2Proof.Proofs

namespace Sys2Proof.Proofs

open Sys2Proof.Machine Sys2Proof.Safety

/-! ## TRNG_GET (43_trng_driver.md R170) -/

/-- Settles O40: the one CR write with the RNG clock on, and the first fault of the run with it gated. -/
theorem trngGetArms : Obligations.TrngGetArms := by
  refine fun s => ⟨fun hon => exec_trngGet_on s hon, fun hoff hf => ?_⟩
  rw [exec_trngGet_off s hoff, raiseFault_first _ hf]

/-! ## TRNG_CANCEL and its two writes (43_trng_driver.md R173, R174) -/

/-- `s` between TRNG_CANCEL's writes: RNGEN is cleared and the second write is outstanding. -/
def betweenCancelWrites (s : State) : State := { s with cr := s.cr &&& 0x28, cancelStep2 := true }

theorem exec_trngCancel_first (s : State) (h : rngClockOn s = true) :
    exec .trngCancel s = .next (betweenCancelWrites s) := exec_trngCancel_on s h

/-- The second write finds the CR of the first, so of the three fields it leaves CED alone. -/
theorem threadStep_betweenCancelWrites (s : State) (h : rngClockOn s = true) :
    threadStep (betweenCancelWrites s) =
      emit .trngCancel .ok { s with cr := s.cr &&& 0x20, cancelStep2 := false } := by
  have hcr : s.cr &&& 0x28 &&& 0x24 = s.cr &&& 0x20 := BitVec.and_assoc ..
  rw [threadStep_cancel _ rfl, cancelSecondWrite_on _ (by exact h), crAfterWrite_ie_off, betweenCancelWrites, hcr]

/-- Settles O41: the first write, the second write, and the admission of hardware events at every boundary. -/
theorem trngCancelIsTwoWrites : Obligations.TrngCancelIsTwoWrites := by
  refine fun s => ⟨fun hon => ⟨_, exec_trngCancel_first s hon, rfl, threadStep_betweenCancelWrites s hon⟩,
    fun hoff hf => ?_, fun i hi => admitsNow_hardware _ hi⟩
  rw [exec_trngCancel_off s hoff, raiseFault_first _ hf]

/-- From a free thread, TRNG_CANCEL's word in program order performs the first write. -/
theorem step_trngCancel {s : State} {q : List Slot} (hon : rngClockOn s = true) (hf : s.faults = [])
    (hb : threadBusy s = false) (hq : s.queue = .inOrder (encode .trngCancel) :: q) :
    step s = .next (betweenCancelWrites { s with queue := q }) :=
  (step_inOrder s _ .trngCancel q hf hq (decode_encode .trngCancel rfl) hb).trans
    (exec_trngCancel_first { s with queue := q } hon)

/-- The thread's turn between the writes performs the second one. -/
theorem step_betweenCancelWrites {s : State} (rest : List Slot) (hon : rngClockOn s = true) (hf : s.faults = []) :
    step (betweenCancelWrites { s with queue := .thread :: rest }) =
      .next (emit .trngCancel .ok { s with cr := s.cr &&& 0x20, cancelStep2 := false, queue := rest }) :=
  (step_thread (betweenCancelWrites { s with queue := .thread :: rest }) rest hf rfl).trans
    (congrArg Host.Outcome.next (threadStep_betweenCancelWrites { s with queue := rest } hon))

/-- A seed error at the head of the schedule between the writes sets SEIS, and leaves the second write outstanding. -/
theorem step_seedError_betweenCancelWrites {s : State} (q : List Slot) (hf : s.faults = []) :
    step (betweenCancelWrites { s with queue := .atOnce (encode .hwSeedError) :: q }) =
      .next (betweenCancelWrites { s with sr := s.sr ||| 0x40, queue := q }) :=
  step_atOnce (betweenCancelWrites { s with queue := .atOnce (encode .hwSeedError) :: q }) _ .hwSeedError q hf rfl
    (decode_encode .hwSeedError rfl) (admitsNow_hardware _ rfl)

theorem cancelStep2_of_free {s : State} (h : threadBusy s = false) : s.cancelStep2 = false :=
  (Bool.or_eq_false_iff.mp h).1

/-- Settles O42: the two writes as steps, with the seed error's step between them; the second write leaves SR alone. -/
theorem trngCancelRunsInTwoSteps : Obligations.TrngCancelRunsInTwoSteps := by
  intro s rest hon hf hb
  have hc : s.cancelStep2 = false := cancelStep2_of_free hb
  constructor
  · intro hq
    have hfirst := step_trngCancel hon hf hb hq
    have hsecond := step_betweenCancelWrites rest hon hf
    rw [steps_succ 1 _ _ hfirst, steps_succ 0 _ _ hsecond, steps_zero, hc]
    rfl
  · intro hq
    have hfirst := step_trngCancel hon hf hb hq
    have herror := step_seedError_betweenCancelWrites (.thread :: rest) hf
    have hsecond := step_betweenCancelWrites (s := { s with sr := s.sr ||| 0x40 }) rest hon hf
    rw [steps_succ 2 _ _ hfirst, steps_succ 1 _ _ herror, steps_succ 0 _ _ hsecond, steps_zero, hc]
    rfl

/-! ## The driver's states (43_trng_driver.md R172, 10_state.md R35) -/

/-- CLIENT_RETURN Done with the RNG clock on keeps CED alone in CR and ends the invocation. -/
theorem exec_clientReturn_done_on (s : State) (hp : s.phase = .clientActive) (h : rngClockOn s = true) :
    exec (.clientReturn .done) s = .next (endInvocation .done { s with cr := s.cr &&& 0x20 }) := by
  unfold exec execClientReturn
  rw [hp]; dsimp only
  rw [modifyCR_on _ s h, andThen_done, crAfterWrite_done, ← hp]

theorem handlerStep_h5_on (s : State) (h : rngClockOn s = true) :
    handlerStep .h5 s = goTo .h6 { s with cr := s.cr &&& 0x28 } := by
  rw [handlerStep, microH5_on s h, crAfterWrite_rngen_off]

theorem handlerStep_h6_on (s : State) (h : rngClockOn s = true) :
    handlerStep .h6 s = returnHandler { s with cr := (s.cr &&& 0x28) ||| 0x04 } := by
  rw [handlerStep, microH6_on s h, crAfterWrite_rngen_on]

/-- With at most CED set in CR the driver is Disabled. -/
theorem driverState_ced_only {s : State} {v : Word} (h : s.cr = v &&& 0x20) : driverState s = .disabled := by
  rw [driverState_disabled_iff, ieSet, rngenSet, h]
  simp [ieBit, rngenBit]

/-- With IE and RNGEN set in CR, whatever CED is, the driver is Armed. -/
theorem driverState_ie_and_rngen {s : State} {v : Word} (h : s.cr = (v &&& 0x20) ||| 0x0C) :
    driverState s = .armed := by
  have hie : ieSet s = true := by rw [ieSet, h]; simp [ieBit]
  have hrngen : rngenSet s = true := by rw [rngenSet, h]; simp [rngenBit]
  rw [driverState, hie, hrngen]

/-- H5 and H6 turn the generator off and on again: RNGEN is set, and CED and IE are kept. -/
theorem cr_handlerStep_h5_h6 (s : State) (h : rngClockOn s = true) :
    (handlerStep .h6 (handlerStep .h5 s)).cr = (s.cr &&& 0x28) ||| 0x04 := by
  rw [handlerStep_h5_on s h, handlerStep_h6_on _ (by exact h)]
  exact congrArg (· ||| 0x04) (BitVec.and_assoc ..)

theorem ieSet_handlerStep_h5_h6 (s : State) (h : rngClockOn s = true) :
    ieSet (handlerStep .h6 (handlerStep .h5 s)) = ieSet s := by
  rw [ieSet, cr_handlerStep_h5_h6 s h, ieSet]
  simp [ieBit]

theorem rngenSet_handlerStep_h5_h6 (s : State) (h : rngClockOn s = true) :
    rngenSet (handlerStep .h6 (handlerStep .h5 s)) = true := by
  rw [rngenSet, cr_handlerStep_h5_h6 s h]
  simp [rngenBit]

/-- Settles O45: each operation's CR gives IE and RNGEN, and H5 and H6 keep IE and set RNGEN. -/
theorem driverStateTransitions : Obligations.DriverStateTransitions := by
  intro s hon
  refine ⟨⟨_, exec_trngGet_on s hon, driverState_ie_and_rngen rfl⟩, ⟨_, exec_trngCancel_first s hon, ?_⟩,
    fun hp => ⟨_, exec_clientReturn_done_on s hp hon, driverState_ced_only rfl⟩, ?_⟩
  · rw [threadStep_betweenCancelWrites s hon]
    exact driverState_ced_only rfl
  · rw [driverState, ieSet_handlerStep_h5_h6 s hon, rngenSet_handlerStep_h5_h6 s hon, driverState]
    cases ieSet s <;> cases rngenSet s <;> rfl

/-! ## TRNG_SET_CLIENT (43_trng_driver.md R176) -/

theorem exec_trngSetClient {c : Nat} (h : clientInRange c = true) (s : State) :
    exec (.trngSetClient c) s = .next { s with client := some c } :=
  congrArg Host.Outcome.next (if_pos h)

/-- A format-C word with operand 0 names no client and is refused (30_encoding.md R92 item 5). -/
theorem decode_noClient {o : Byte} {build : Nat → Instr} (ho : opcodeMap o.toNat = some (.c build)) :
    decode (packCommand o 0 0) = .error .operandRange := by
  have houtcome := decode_formatC 0 ho
  rwa [if_neg (not_not.mpr rfl)] at houtcome

/-- Settles O43: a ClientId fills the slot, and 0 is none. -/
theorem setClientFillsTheSlot : Obligations.SetClientFillsTheSlot :=
  ⟨fun c s hlow hhigh => exec_trngSetClient ((clientInRange_iff c).mpr ⟨hlow, hhigh⟩) s,
    decode_noClient (o := 0x22) rfl⟩

/-! ## The clock passthroughs (43_trng_driver.md R178 to R180) -/

theorem exec_trngEnableClock_eq (s : State) : exec .trngEnableClock s = exec (.clkEnable (.ahb2 .rng)) s :=
  (exec_clkEnable rfl s).symm

theorem exec_trngDisableClock_eq (s : State) : exec .trngDisableClock s = exec (.clkDisable (.ahb2 .rng)) s :=
  (exec_clkDisable rfl s).symm

/-- Settles O44: the passthroughs are the CLK_* operations on the RNG line, whose backends O25 and O26 describe. -/
theorem clockPassthroughsActOnTheRngLine : Obligations.ClockPassthroughsActOnTheRngLine := by
  intro s
  obtain ⟨b, hb, hon, -⟩ := clkEnableSetsTheLine (.ahb2 .rng) s rfl
  obtain ⟨c, hc, hoff, -⟩ := clkDisableClearsTheLine (.ahb2 .rng) s rfl
  exact ⟨rfl, exec_trngEnableClock_eq s, exec_trngDisableClock_eq s, b, c, (exec_trngEnableClock_eq s).trans hb, hon,
    (exec_trngDisableClock_eq s).trans hc, hoff⟩

end Sys2Proof.Proofs

namespace Sys2Proof.Proofs

open Sys2Proof.Machine Sys2Proof.Safety

/-! ## The client's invocation and its event (44_trng_interrupt.md R200, R204) -/

/-- With no invocation open before or after, an update that logs nothing keeps the event log closed. -/
theorem invocationLogged_of_closed {s t : State} (h : InvocationLogged s) (hs : s.phase ≠ .clientActive)
    (ht : t.phase ≠ .clientActive) (hev : t.ev = s.ev) : InvocationLogged t := by
  rw [InvocationLogged, hev]
  exact (iff_false_left ht).mpr fun hc => hs (h.mpr hc)

/-- An update that logs an event decides both sides anew. -/
theorem invocationLogged_of_event {t : State} {l : List Event} {e : Event} (hev : t.ev = l ++ [e])
    (h : t.phase = .clientActive ↔ ∃ c, e = .clientInvoked c) : InvocationLogged t := by
  simpa [InvocationLogged, hev] using h

theorem invocationLogged_endInvocation (r : Answer) (s : State) : InvocationLogged (endInvocation r s) :=
  invocationLogged_of_event (e := .clientReturned r) rfl (by simp [endInvocation])

theorem not_clientActive_of_inHandler {s : State} (h : inHandler s = true) : s.phase ≠ .clientActive := by
  intro hp
  simp [inHandler, hp] at h

/-- IRQ_ENTER finds no invocation open and opens none; CLIENT_RETURN closes one and logs the answer. -/
theorem exec_keeps_invocationLogged {i : Instr} {s t : State} (h : InvocationLogged s) (he : exec i s = .next t) :
    InvocationLogged t := by
  apply exec_cases InvocationLogged i s t he
  case enter => exact fun _ hp => invocationLogged_of_closed h (by simp [hp]) (by simp) rfl
  case more => exact fun _ _ => invocationLogged_endInvocation .more s
  case done => exact fun _ _ _ => invocationLogged_endInvocation .done _
  all_goals intros; exact h

/-- The handler runs with no invocation open, and H11 alone opens one, with its event. -/
theorem threadStep_keeps_invocationLogged {s : State} (h : InvocationLogged s) : InvocationLogged (threadStep s) := by
  have closed : ∀ {t : State}, inHandler s = true → t.phase ≠ .clientActive → t.ev = s.ev → InvocationLogged t :=
    fun hr => invocationLogged_of_closed h (not_clientActive_of_inHandler hr)
  have inHandler_of : ∀ {label}, s.phase = .running label → inHandler s = true := fun hp => by simp [inHandler, hp]
  apply threadStep_cases InvocationLogged s
  case test | latch => exact fun _ hr _ => closed hr (by simp) rfl
  case clearSeed | discard | off | on | clearClock | noClient =>
    exact fun _ hp _ => closed (inHandler_of hp) (by simp) rfl
  case hook => exact fun _ _ => invocationLogged_of_event (e := .rngReconfigure) (rngReconfigure_ev s) (by simp)
  case invoke => exact fun _ _ c _ => invocationLogged_of_event (e := .clientInvoked c) rfl (by simp)
  all_goals intros; exact h

/-- Settles O16: an invocation opens with its event at H11, and closes with its answer; every other event is the hook's,
logged in the handler. -/
theorem everyStepKeepsTheInvocationLogged : Obligations.EveryStepKeepsTheInvocationLogged := by
  intro s t h hst
  obtain ⟨-, ⟨q, rfl⟩ | ⟨r, q, rfl⟩ | ⟨i, q, -, -, he⟩⟩ := step_cases s t hst
  · exact threadStep_keeps_invocationLogged (s := { s with queue := q }) h
  · exact h
  · exact exec_keeps_invocationLogged (s := { s with queue := q }) h he

end Sys2Proof.Proofs

namespace Sys2Proof.Proofs

open Sys2Proof.Machine Sys2Proof.Safety

/-! ## The words that ClearSR writes (20_memory.md R66, 44_trng_interrupt.md R193, R199) -/

/-- Of a mask only the bits that are not set anyway matter. -/
theorem and_or_congr {a b c : Word} (h : a ||| c = b ||| c) (v : Word) : v &&& a ||| c = v &&& b ||| c := by
  apply word_ext; intro i _
  have hi := congrArg (fun w : Word => w.getLsbD i) h
  simp only [BitVec.getLsbD_or, BitVec.getLsbD_and] at hi ⊢
  cases v.getLsbD i with
  | true => simpa only [Bool.true_and] using hi
  | false => simp only [Bool.false_and]

/-- H3's write clears SEIS, and clears CEIS where the latch carries 0. -/
theorem srAfterWrite_clearSeis (sr v : Word) :
    srAfterWrite sr (putBit v seisBit false) = sr &&& ((v &&& 0x20) ||| 0xFFFFFF9F) := by
  rw [srAfterWrite_eq, putBit_seis_false, and_or_congr (b := 0x20) (by decide)]

/-- H10's write clears CEIS, and clears SEIS where the latch carries 0. -/
theorem srAfterWrite_clearCeis (sr v : Word) :
    srAfterWrite sr (putBit v ceisBit false) = sr &&& ((v &&& 0x40) ||| 0xFFFFFF9F) := by
  rw [srAfterWrite_eq, putBit_ceis_false, and_or_congr (b := 0x40) (by decide)]

/-- Written back to the word it was read from, a latch clears only what the masks clear. -/
theorem and_latched (sr a b c : Word) : sr &&& ((sr &&& a &&& b) ||| c) = sr &&& ((a &&& b) ||| c) := by
  simp only [BitVec.and_or_distrib_left, ← BitVec.and_assoc, BitVec.and_self]

/-- With SEIS 0, a mask that clears it clears nothing more. -/
theorem and_clearSeis_of_seis_zero {s : State} (h : seisSet s = false) : s.sr &&& 0xFFFFFFDF = s.sr &&& 0xFFFFFF9F := by
  apply word_ext; intro i hi
  rw [seisSet, seisBit] at h
  simp only [BitVec.getLsbD_and]
  interval_cases i <;> simp_all

/-! ## What each micro-step does (44_trng_interrupt.md R191) -/

/-- The effect of the micro-step with a given label where its register accesses do not fault. -/
def microEffect (label : HandlerStep) (s : State) : State :=
  match label with
  | .h1 => goTo (if seisSet s then .h2 else .h7) s
  | .h2 => goTo .h3 { s with hsr := s.sr &&& 0x67 }
  | .h3 => goTo .h4 { s with sr := s.sr &&& ((s.hsr &&& 0x20) ||| 0xFFFFFF9F) }
  | .h4 => goTo .h5 (afterDrRead s)
  | .h5 => goTo .h6 { s with cr := s.cr &&& 0x28 }
  | .h6 => returnHandler { s with cr := (s.cr &&& 0x28) ||| 0x04 }
  | .h7 => goTo (if ceisSet s then .h8 else .h11) s
  | .h8 => goTo .h9 (rngReconfigure s)
  | .h9 => goTo .h10 { s with hsr := s.sr &&& 0x67 }
  | .h10 => returnHandler { s with sr := s.sr &&& ((s.hsr &&& 0x40) ||| 0xFFFFFF9F) }
  | .h11 => microH11 s

/-- With the RNG clock on every micro-step has its effect; H8 and H11 access no register and need no clock. -/
theorem handlerStep_clocked (label : HandlerStep) (s : State)
    (h : rngClockOn s = true ∨ label = .h8 ∨ label = .h11) : handlerStep label s = microEffect label s := by
  by_cases h8 : label = .h8
  · subst h8; exact microH8_eq s
  by_cases h11 : label = .h11
  · subst h11; rfl
  have hon : rngClockOn s = true := h.resolve_right (by simp [h8, h11])
  cases label with
  | h1 => exact microH1_on s hon
  | h2 => exact microH2_on s hon
  | h3 => rw [handlerStep, microH3_on s hon, srAfterWrite_clearSeis]; rfl
  | h4 => exact microH4_on s hon
  | h5 => exact handlerStep_h5_on s hon
  | h6 => exact handlerStep_h6_on s hon
  | h7 => exact microH7_on s hon
  | h8 => exact absurd rfl h8
  | h9 => exact microH9_on s hon
  | h10 => rw [handlerStep, microH10_on s hon, srAfterWrite_clearCeis]; rfl
  | h11 => exact absurd rfl h11

/-- A micro-step has its effect or raises the fault of a gated access. -/
theorem handlerStep_cases (label : HandlerStep) (s : State) :
    handlerStep label s = microEffect label s ∨ ∃ r, handlerStep label s = raiseFault (.rngClockGated r) s := by
  by_cases h : rngClockOn s = true ∨ label = .h8 ∨ label = .h11
  · exact .inl (handlerStep_clocked label s h)
  · simp only [not_or, Bool.not_eq_true] at h
    obtain ⟨hoff, h8, h11⟩ := h
    exact .inr (handlerStep_off label s hoff h8 h11)

/-- The hook's effect where none is listed, as where one is (41_clock_handle.md R124). -/
theorem rngReconfigure_next {s : State} {b : Backend} {rest : List Backend}
    (h : s.reconfigEffects = b :: rest ∨ (s.reconfigEffects = [] ∧ b = s.backend ∧ rest = [])) :
    rngReconfigure s = { s with ev := s.ev ++ [.rngReconfigure], backend := b, reconfigEffects := rest } := by
  obtain h | ⟨h, rfl, rfl⟩ := h
  · exact rngReconfigure_listed s b rest h
  · rw [rngReconfigure_default s h, ← h]; rfl

/-- H4 and a pull clear DRDY with one DR read (20_memory.md R62). -/
theorem afterDrRead_eq (s : State) :
    afterDrRead s =
      { s with sr := s.sr &&& 0xFFFFFFFE, draws := if s.drLoaded then s.draws else s.draws + 1 } := rfl

/-- Settles O47: each micro-step's effect, written out. -/
theorem handlerMicroSteps : Obligations.HandlerMicroSteps := by
  refine fun s => ⟨fun (hon : rngClockOn s = true) => ?_, ?_, rfl⟩
  · have effect := fun label => handlerStep_clocked label s (.inl hon)
    exact ⟨effect .h1, effect .h2, effect .h3, effect .h4, effect .h5, effect .h6, effect .h7, effect .h9, effect .h10⟩
  · rw [handlerStep_clocked .h8 s (.inr (.inl rfl)), microEffect]
    split
    · rw [rngReconfigure_default s ‹_›]; rfl
    · rw [rngReconfigure_listed s _ _ ‹_›]; rfl

/-! ## What no micro-step touches (44_trng_interrupt.md R201) -/

/-- `t` has the fields of `s` that no micro-step writes. -/
structure HandlerFrame (s t : State) : Prop where
  out : t.out = s.out
  dr : t.dr = s.dr
  drLoaded : t.drLoaded = s.drLoaded
  client : t.client = s.client
  refused : t.refused = s.refused
  queue : t.queue = s.queue
  cancelStep2 : t.cancelStep2 = s.cancelStep2

theorem handlerFrame_refl (s : State) : HandlerFrame s s := ⟨rfl, rfl, rfl, rfl, rfl, rfl, rfl⟩

theorem handlerFrame_raiseFault (f : Fault) (s : State) : HandlerFrame s (raiseFault f s) :=
  ⟨rfl, rfl, rfl, rfl, rfl, rfl, rfl⟩

theorem handlerFrame_rngReconfigure (s : State) : HandlerFrame s (rngReconfigure s) := by constructor <;> simp

theorem handlerFrame_microH11 (s : State) : HandlerFrame s (microH11 s) := by
  unfold microH11
  split <;> exact ⟨rfl, rfl, rfl, rfl, rfl, rfl, rfl⟩

theorem handlerFrame_microEffect (label : HandlerStep) (s : State) : HandlerFrame s (microEffect label s) := by
  cases label with
  | h8 => exact { handlerFrame_rngReconfigure s with }
  | h11 => exact handlerFrame_microH11 s
  | _ => exact ⟨rfl, rfl, rfl, rfl, rfl, rfl, rfl⟩

theorem handlerFrame_handlerStep (label : HandlerStep) (s : State) : HandlerFrame s (handlerStep label s) := by
  obtain h | ⟨r, h⟩ := handlerStep_cases label s
  · rw [h]; exact handlerFrame_microEffect label s
  · rw [h]; exact handlerFrame_raiseFault _ s

/-- Only an access with the clock gated records a fault. -/
theorem microEffect_faults (label : HandlerStep) (s : State) : (microEffect label s).faults = s.faults := by
  cases label with
  | h8 => exact rngReconfigure_faults s
  | h11 => rw [microEffect, microH11]; split <;> rfl
  | _ => rfl

/-- The hook is the only micro-step before H11 that logs. -/
theorem mem_microEffect_ev {label : HandlerStep} (h11 : label ≠ .h11) {s : State} {e : Event}
    (he : e ∈ (microEffect label s).ev) : e ∈ s.ev ∨ e = .rngReconfigure := by
  cases label with
  | h8 => simpa [microEffect] using he
  | h11 => exact absurd rfl h11
  | _ => exact .inl he

theorem mem_handlerStep_ev {label : HandlerStep} (h11 : label ≠ .h11) {s : State} {e : Event}
    (he : e ∈ (handlerStep label s).ev) : e ∈ s.ev ∨ e = .rngReconfigure := by
  obtain h | ⟨r, h⟩ := handlerStep_cases label s
  · exact mem_microEffect_ev h11 (h ▸ he)
  · rw [h] at he; exact .inl he

theorem rngReconfigure_setClient (s : State) (c : Option Nat) :
    rngReconfigure { s with client := c } = { rngReconfigure s with client := c } := by
  by_cases hr : s.reconfigEffects = []
  · rw [rngReconfigure_default s hr, rngReconfigure_default { s with client := c } hr]; rfl
  · obtain ⟨b, rest, hr⟩ := List.exists_cons_of_ne_nil hr
    rw [rngReconfigure_listed s b rest hr, rngReconfigure_listed { s with client := c } b rest hr]

/-- H11 alone reads the client. -/
theorem microEffect_setClient {label : HandlerStep} (h11 : label ≠ .h11) (s : State) (c : Option Nat) :
    microEffect label { s with client := c } = { microEffect label s with client := c } := by
  cases label with
  | h8 => exact congrArg (goTo .h9) (rngReconfigure_setClient s c)
  | h11 => exact absurd rfl h11
  | _ => rfl

theorem handlerStep_setClient {label : HandlerStep} (h11 : label ≠ .h11) (s : State) (c : Option Nat) :
    handlerStep label { s with client := c } = { handlerStep label s with client := c } := by
  by_cases h : rngClockOn s = true ∨ label = .h8 ∨ label = .h11
  · rw [handlerStep_clocked label s h, handlerStep_clocked label { s with client := c } h]
    exact microEffect_setClient h11 s c
  · simp only [not_or, Bool.not_eq_true] at h
    obtain ⟨hoff, h8, -⟩ := h
    rw [handlerStep_gated label s hoff h8 h11, handlerStep_gated label { s with client := c } hoff h8 h11]
    rfl

/-- Settles O52: H11 alone reads the client, the hook alone logs before it, and every micro-step has the frame. -/
theorem errorBranchesAreSilent : Obligations.ErrorBranchesAreSilent := by
  refine fun label s => ⟨fun h11 => ⟨handlerStep_setClient h11 s, fun e => mem_handlerStep_ev h11⟩, ?_⟩
  have frame := handlerFrame_handlerStep label s
  exact ⟨frame.out, frame.dr, frame.drLoaded, frame.client, frame.refused, frame.queue, frame.cancelStep2⟩

/-! ## Runs of the handler with nothing scheduled (44_trng_interrupt.md R191) -/

/-- The next step is the micro-step `label`: no fault is recorded, nothing is scheduled, and the thread is at it. -/
structure AtMicroStep (label : HandlerStep) (s : State) : Prop where
  faults : s.faults = []
  queue : s.queue = []
  cancelStep2 : s.cancelStep2 = false
  phase : s.phase = .running label

/-- A run goes on from the effect of the micro-step. -/
theorem steps_microEffect (k : Nat) {label : HandlerStep} {s : State} (h : AtMicroStep label s)
    (hc : rngClockOn s = true ∨ label = .h8 ∨ label = .h11) : steps (k + 1) s = steps k (microEffect label s) :=
  steps_running k label s _ h.faults h.queue h.cancelStep2 h.phase (handlerStep_clocked label s hc)

/-- The effect of a micro-step that stays in the handler leaves it at the next label. -/
theorem atMicroStep_microEffect {label next : HandlerStep} {s : State} (h : AtMicroStep label s)
    (hp : (microEffect label s).phase = .running next) : AtMicroStep next (microEffect label s) where
  faults := (microEffect_faults label s).trans h.faults
  queue := (handlerFrame_microEffect label s).queue.trans h.queue
  cancelStep2 := (handlerFrame_microEffect label s).cancelStep2.trans h.cancelStep2
  phase := hp

/-- What ClearSR leaves with no event between its steps: the latch, and SR under the mask that clears the flag. -/
def srCleared (mask : Word) (s : State) : State := { s with sr := s.sr &&& mask, hsr := s.sr &&& 0x67 }

/-- H2 and H3, ClearSR(SEIS) with no event between its steps: the one change to SR is that SEIS is cleared. -/
theorem steps_clearSeis (k : Nat) {s : State} (h : AtMicroStep .h2 s) (hon : rngClockOn s = true) :
    steps (k + 2) s = steps k (goTo .h4 (srCleared 0xFFFFFFBF s)) := by
  have hsr : s.sr &&& ((s.sr &&& 0x67 &&& 0x20) ||| 0xFFFFFF9F) = s.sr &&& 0xFFFFFFBF := and_latched ..
  rw [steps_microEffect (k + 1) h (.inl hon), steps_microEffect k (atMicroStep_microEffect h rfl) (.inl hon),
    srCleared, ← hsr]
  rfl

/-- H9 and H10, ClearSR(CEIS) with no event between its steps, and the return. -/
theorem steps_clearCeis (k : Nat) {s : State} (h : AtMicroStep .h9 s) (hon : rngClockOn s = true) :
    steps (k + 2) s = steps k (returnHandler (srCleared 0xFFFFFFDF s)) := by
  have hsr : s.sr &&& ((s.sr &&& 0x67 &&& 0x40) ||| 0xFFFFFF9F) = s.sr &&& 0xFFFFFFDF := and_latched ..
  rw [steps_microEffect (k + 1) h (.inl hon), steps_microEffect k (atMicroStep_microEffect h rfl) (.inl hon),
    srCleared, ← hsr]
  rfl

/-- H5 and H6, the generator's restart, and the return: RNGEN is 1, IE and CED are kept. -/
theorem steps_restart (k : Nat) {s : State} (h : AtMicroStep .h5 s) (hon : rngClockOn s = true) :
    steps (k + 2) s = steps k (returnHandler { s with cr := (s.cr &&& 0x28) ||| 0x04 }) := by
  have hcr : s.cr &&& 0x28 &&& 0x28 = s.cr &&& 0x28 := BitVec.and_assoc ..
  rw [steps_microEffect (k + 1) h (.inl hon), steps_microEffect k (atMicroStep_microEffect h rfl) (.inl hon), ← hcr]
  rfl

theorem microEffect_h1_seed {s : State} (h : seisSet s = true) : microEffect .h1 s = goTo .h2 s := by
  rw [microEffect, if_pos h]

/-- H1 and H7 test the two error flags of one SR. -/
theorem steps_noSeedError (k : Nat) {s : State} (h : AtMicroStep .h1 s) (hon : rngClockOn s = true)
    (hs : seisSet s = false) : steps (k + 2) s = steps k (goTo (if ceisSet s then .h8 else .h11) s) := by
  have h1 : microEffect .h1 s = goTo .h7 s := by simp [microEffect, hs]
  have at7 : AtMicroStep .h7 (goTo .h7 s) := h1 ▸ atMicroStep_microEffect h (by rw [h1]; rfl)
  rw [steps_microEffect (k + 1) h (.inl hon), h1, steps_microEffect k at7 (.inl hon)]
  rfl

/-- Settles O48: the test, ClearSR(SEIS), the DR read, and the restart. -/
theorem seedErrorBranch : Obligations.SeedErrorBranch := by
  intro s hf hq hc hp (hon : rngClockOn s = true) hs
  have hsr : s.sr &&& 0xFFFFFFBF &&& 0xFFFFFFFE = s.sr &&& 0xFFFFFFBE := BitVec.and_assoc ..
  have at4 : AtMicroStep .h4 (goTo .h4 (srCleared 0xFFFFFFBF (goTo .h2 s))) := ⟨hf, hq, hc, rfl⟩
  rw [steps_microEffect 5 ⟨hf, hq, hc, hp⟩ (.inl hon), microEffect_h1_seed hs,
    steps_clearSeis 3 (s := goTo .h2 s) ⟨hf, hq, hc, rfl⟩ hon, steps_microEffect 2 at4 (.inl hon),
    steps_restart 0 (atMicroStep_microEffect at4 rfl) hon, steps_zero, ← hsr]
  rfl

/-- H8, by the effect that is next in the list. -/
theorem microEffect_h8_next {s : State} {b : Backend} {rest : List Backend}
    (h : s.reconfigEffects = b :: rest ∨ (s.reconfigEffects = [] ∧ b = s.backend ∧ rest = [])) :
    microEffect .h8 s =
      goTo .h9 { s with ev := s.ev ++ [.rngReconfigure], backend := b, reconfigEffects := rest } :=
  congrArg (goTo .h9) (rngReconfigure_next h)

/-- Settles O49: the tests, the hook, and ClearSR(CEIS) with the clock as the hook leaves it. -/
theorem clockErrorBranch : Obligations.ClockErrorBranch := by
  intro s b rest hf hq hc hp hon hs hce hb hon'
  have at8 : AtMicroStep .h8 (goTo .h8 s) := ⟨hf, hq, hc, rfl⟩
  have hhook := microEffect_h8_next (s := goTo .h8 s) hb
  rw [steps_noSeedError 3 ⟨hf, hq, hc, hp⟩ hon hs, if_pos hce, steps_microEffect 2 at8 (.inr (.inl rfl)),
    steps_clearCeis 0 (atMicroStep_microEffect at8 (by rw [hhook]; rfl)) (by rw [hhook]; exact hon'), hhook,
    steps_zero, ← and_clearSeis_of_seis_zero hs]
  rfl

/-- Settles O50: the tests and H11. -/
theorem dataBranch : Obligations.DataBranch := by
  intro s hf hq hc hp hon hs hce
  rw [steps_noSeedError 1 ⟨hf, hq, hc, hp⟩ hon hs, if_neg (by simp [hce]),
    steps_microEffect 0 (s := goTo .h11 s) ⟨hf, hq, hc, rfl⟩ (.inl hon), steps_zero]
  rfl

/-! ## The bound on the handler (44_trng_interrupt.md R210) -/

/-- How many micro-steps the handler takes at most from a phase. -/
def microStepsLeft : Phase → Nat
  | .idle | .clientActive => 0
  | .running .h1 => 6
  | .running .h2 => 5
  | .running .h3 => 4
  | .running .h4 => 3
  | .running .h5 => 2
  | .running .h6 => 1
  | .running .h7 => 4
  | .running .h8 => 3
  | .running .h9 => 2
  | .running .h10 => 1
  | .running .h11 => 1

theorem microStepsLeft_le_six (p : Phase) : microStepsLeft p ≤ 6 := by
  rcases p with _ | label | _
  · decide
  · cases label <;> decide
  · decide

theorem microStepsLeft_pos (label : HandlerStep) : 0 < microStepsLeft (.running label) := by cases label <;> decide

/-- Every micro-step goes to a label with fewer micro-steps left, or leaves the handler. -/
theorem microStepsLeft_microEffect (label : HandlerStep) (s : State) :
    microStepsLeft (microEffect label s).phase < microStepsLeft (.running label) := by
  cases label with
  | h1 | h7 => rw [microEffect, goTo_phase]; split <;> decide
  | h11 => rw [microEffect, microH11]; split <;> exact Nat.lt_succ_self _
  | _ => exact Nat.lt_succ_self _

theorem inHandler_eq_false_of_none_left {s : State} (h : microStepsLeft s.phase = 0) : inHandler s = false := by
  unfold inHandler
  cases hp : s.phase with
  | running label => exact absurd (hp ▸ h) (microStepsLeft_pos label).ne'
  | _ => rfl

/-- The handler's run is over: the phase is not Running, or a fault is recorded. -/
def HandlerEnded (t : State) : Prop := inHandler t = false ∨ t.faults ≠ []

theorem handlerEnded_raiseFault (f : Fault) {s : State} (hf : s.faults = []) : HandlerEnded (raiseFault f s) :=
  .inr (by simp [hf])

/-- By induction on a bound for the micro-steps left. -/
theorem handler_ends_within (n : Nat) : ∀ s : State, s.faults = [] → s.queue = [] → s.cancelStep2 = false →
    microStepsLeft s.phase ≤ n → ∃ k ≤ n, ∃ t, steps k s = .next t ∧ HandlerEnded t := by
  induction n with
  | zero =>
    intro s _ _ _ hn
    exact ⟨0, le_rfl, s, rfl, .inl (inHandler_eq_false_of_none_left (Nat.le_zero.mp hn))⟩
  | succ n ih =>
    intro s hf hq hc hn
    cases hp : s.phase with
    | running label =>
      rw [hp] at hn
      have hstep := step_running s label hf hq hc hp
      obtain h | ⟨r, h⟩ := handlerStep_cases label s
      · have frame := handlerFrame_microEffect label s
        have hleft := microStepsLeft_microEffect label s
        obtain ⟨k, hk, t, ht, hend⟩ := ih (microEffect label s) ((microEffect_faults label s).trans hf)
          (frame.queue.trans hq) (frame.cancelStep2.trans hc) (by omega)
        exact ⟨k + 1, by omega, t, (steps_succ k _ _ (h ▸ hstep)).trans ht, hend⟩
      · exact ⟨1, by omega, _, steps_succ 0 _ _ (h ▸ hstep), handlerEnded_raiseFault _ hf⟩
    | idle | clientActive => exact ⟨0, Nat.zero_le _, s, rfl, .inl (inHandler_eq_false_of_none_left (by rw [hp]; rfl))⟩

/-- Settles O51: no label has more than six micro-steps left. -/
theorem handlerEndsWithinSixSteps : Obligations.HandlerEndsWithinSixSteps :=
  fun s hf hq hc _ => handler_ends_within 6 s hf hq hc (microStepsLeft_le_six s.phase)

end Sys2Proof.Proofs

namespace Sys2Proof.Proofs

open Sys2Proof.Machine Sys2Proof.Safety

/-! ## SEQ_NEXT (44_trng_interrupt.md R203) -/

theorem exec_seqNext_wrongPhase (s : State) (hp : s.phase ≠ .clientActive) :
    exec .seqNext s = .next (refuse .wrongPhase s) := by
  unfold exec execSeqNext
  cases h : s.phase with
  | clientActive => exact absurd h hp
  | idle => rfl
  | running _ => rfl

/-- Settles O54: a pull, by the state of the sequence, the RNG clock and DRDY, and the refusal outside ClientActive. -/
theorem seqNextPullsAWord : Obligations.SeqNextPullsAWord := by
  refine fun s => ⟨fun hp hq => ?_, fun hp hq hon hd => ?_, fun hp hq hon hd => ?_, fun hp hq hoff hf => ?_,
    fun hp => exec_seqNext_wrongPhase s hp⟩
  all_goals rw [exec_seqNext_active s hp]
  · rw [pullWord_exhausted s hq]; rfl
  · rw [pullWord_empty s hq hon hd]; rfl
  · rw [pullWord_word s hq hon hd]; rfl
  · rw [pullWord_gated s hq hoff, raiseFault_first _ hf]

/-- What a pull that appends a word has done: it read the word from DR in a fresh sequence, where DRDY was set. -/
theorem pullWord_delivers {s : State} {w : Word}
    (h : (pullWord s).out = s.out ++ [{ mnemonic := .seqNext, result := .word (some w) }]) :
    drdySet s = true ∧ drWord s = w ∧ pullWord s = emit .seqNext (.word (some (drWord s))) (afterDrRead s) := by
  cases hq : s.seq with
  | exhausted => rw [pullWord_exhausted s hq] at h; simp at h
  | fresh =>
    cases hc : rngClockOn s
    · rw [pullWord_gated s hq hc] at h; simp at h
    cases hd : drdySet s
    · rw [pullWord_empty s hq hc hd] at h; simp at h
    have hpull := pullWord_word s hq hc hd
    rw [hpull] at h
    exact ⟨rfl, by simpa using h, hpull⟩

/-- A DR read clears DRDY. -/
theorem drdySet_afterDrRead (s : State) : drdySet (afterDrRead s) = false :=
  getLsbD_putBit_self s.sr drdyBit false (by decide)

/-- Settles O55: by the invariant DR is loaded wherever DRDY is set, so the word delivered is DR and no free value. -/
theorem deliveredWordsComeFromDr : Obligations.DeliveredWordsComeFromDr := by
  intro s t hinv he w hout
  by_cases hp : s.phase = .clientActive
  · rw [exec_seqNext_active s hp] at he
    cases he
    obtain ⟨hd, hw, hpull⟩ := pullWord_delivers hout
    have hloaded : s.drLoaded = true := hinv.drdyLoaded hd
    rw [drWord, if_pos hloaded] at hw
    rw [hpull]
    exact ⟨hw.symm, hd, drdySet_afterDrRead s, by simp [hloaded]⟩
  · rw [exec_seqNext_wrongPhase s hp] at he
    cases he
    simp at hout

/-! ## CLIENT_RETURN (44_trng_interrupt.md R204 to R206) -/

theorem exec_clientReturn_more (s : State) (hp : s.phase = .clientActive) :
    exec (.clientReturn .more) s = .next (endInvocation .more s) := by
  unfold exec execClientReturn
  rw [hp]

theorem exec_clientReturn_wrongPhase (r : Answer) (s : State) (hp : s.phase ≠ .clientActive) :
    exec (.clientReturn r) s = .next (refuse .wrongPhase s) := by
  unfold exec execClientReturn
  cases h : s.phase with
  | clientActive => exact absurd h hp
  | idle => rfl
  | running _ => rfl

/-- Settles O57: the two answers, the fault of Done's write with the RNG clock gated, and the refusal. -/
theorem clientReturnEndsTheInvocation : Obligations.ClientReturnEndsTheInvocation := by
  refine fun s => ⟨exec_clientReturn_more s, exec_clientReturn_done_on s, fun hp hoff hf => ?_,
    fun hp r => exec_clientReturn_wrongPhase r s hp⟩
  rw [exec_clientReturn_done_off s hp hoff, raiseFault_first _ hf]

/-! ## IRQ_ENTER (44_trng_interrupt.md R190) -/

theorem exec_irqEnter_idle (s : State) (hp : s.phase = .idle) : exec .irqEnter s = .next (enterHandler s) := by
  unfold exec execIrqEnter
  rw [hp]

/-- Settles O46: the entry from phase Idle, and the refusal of a re-entry. -/
theorem irqEnterEntersTheHandler : Obligations.IrqEnterEntersTheHandler :=
  fun s => ⟨exec_irqEnter_idle s, exec_irqEnter_reentry s⟩

end Sys2Proof.Proofs

namespace Sys2Proof.Proofs

open Sys2Proof.Machine Sys2Proof.Safety

/-! ## Hardware events at a step boundary (45_hw_and_env_events.md R235, 20_memory.md R71 item 3) -/

/-- The words of the hardware leave no operand check to fail (30_encoding.md R88). -/
theorem wellFormed_of_hardware {i : Instr} (hi : agentOf i = .hardware) : i.wellFormed = true := by
  cases i with
  | hwDataReady | hwSeedError | hwClockError | hwSeedCurrent | hwClockCurrent => rfl
  | _ => cases hi

/-- Settles O9: a hardware event's word decodes to the event, which every boundary admits. -/
theorem hardwareEventsTakePlaceAtAnyBoundary : Obligations.HardwareEventsTakePlaceAtAnyBoundary :=
  fun s i rest hf hi hq =>
    step_atOnce s (encode i) i rest hf hq (decode_encode i (wellFormed_of_hardware hi)) (admitsNow_hardware s hi)

/-! ## The flags of the hardware events (45_hw_and_env_events.md R230 to R234) -/

theorem putBit_secs (v : Word) (b : Bool) : putBit v secsBit b = if b then v ||| 0x04 else v &&& 0xFFFFFFFB := rfl

theorem putBit_cecs (v : Word) (b : Bool) : putBit v cecsBit b = if b then v ||| 0x02 else v &&& 0xFFFFFFFD := rfl

/-- A word arrives whatever RNGEN holds, since HW_GEN_REQUIRES_RNGEN is decided false (92_eei_decisions.md D17). -/
theorem exec_hwDataReady (w : Word) (s : State) : exec (.hwDataReady w) s = .next (loadWord w s) := rfl

theorem loadWord_eq (w : Word) (s : State) :
    loadWord w s = { s with dr := w, drLoaded := true, sr := s.sr ||| 0x01 } := by
  rw [loadWord, setSrBit, putBit_drdy_true]

/-- Settles O59: each event is one field write of SR, and HW_DATA_READY also loads DR. -/
theorem hardwareEventsWriteTheirFlag : Obligations.HardwareEventsWriteTheirFlag := by
  refine fun s => ⟨fun w => ?_, ?_, ?_, fun b => ?_, fun b => ?_⟩
  · rw [exec_hwDataReady, loadWord_eq]
  · rw [exec, execHwSeedError, setSrBit, putBit_seis_true]
  · rw [exec, execHwClockError, setSrBit, putBit_ceis_true]
  · rw [exec, execHwSeedCurrent, setSrBit, putBit_secs]
  · rw [exec, execHwClockCurrent, setSrBit, putBit_cecs]

/-! ## The environment events and their operands (45_hw_and_env_events.md R236 to R239) -/

/-- A format-P word whose operand is no divisor is refused (30_encoding.md R92 item 5). -/
theorem decode_noPrescaler {o p : Byte} {build : Prescaler → Instr} (ho : opcodeMap o.toNat = some (.p build))
    (hp : p.toNat ∉ [1, 2, 4, 8, 16]) : decode (packCommand o p 0) = .error .operandRange := by
  have houtcome := decode_formatP p ho
  rwa [if_neg hp] at houtcome

/-- Settles O60: each meaning is its one field update, and the two rows of format P let no other divisor by. -/
theorem environmentEventsWriteTheirField : Obligations.EnvironmentEventsWriteTheirField :=
  fun _ => ⟨fun _ => rfl, fun _ => rfl, fun _ => rfl, fun _ => rfl,
    fun _ hp => ⟨decode_noPrescaler (o := 0x91) rfl hp, decode_noPrescaler (o := 0x92) rfl hp⟩⟩

end Sys2Proof.Proofs

namespace Sys2Proof.Proofs

open Sys2Proof.Machine Sys2Proof.Safety

/-! ## Software words while the handler runs (60_exceptions.md R263, 20_memory.md R71) -/

theorem threadBusy_running {s : State} {label : HandlerStep} (hp : s.phase = .running label) : threadBusy s = true := by
  simp [threadBusy, inHandler, hp]

/-- A software operation is admitted exactly where the thread has no step of its own outstanding. -/
theorem admitsNow_software {i : Instr} (s : State) (hi : agentOf i = .software) : admitsNow i s = !threadBusy s := by
  rw [admitsNow, hi]

/-- Settles O11: the micro-step outstanding makes the thread busy, so the word waits whichever way it is scheduled, and the
thread's own step is that micro-step. -/
theorem noSoftwareOperationInPhaseRunning : Obligations.NoSoftwareOperationInPhaseRunning := by
  intro s label w i rest hf hc hp hd hi hq
  have hbusy : threadBusy s = true := threadBusy_running hp
  rw [← threadStep_running s label hc hp]
  rcases hq with hq | hq
  · have hwaits : admitsNow i s = false := by rw [admitsNow_software s hi, hbusy, Bool.not_true]
    exact step_atOnce_waits s w i rest hf hq hd hwaits
  · exact step_inOrder_waits s w rest hf hq hbusy

/-! ## The interrupt line (60_exceptions.md R260) -/

/-- A single-bit mask tests its bit. -/
theorem and_bitMask_ne_zero_iff (v : Word) {k : Nat} (hk : k < 32) : v &&& bitMask k ≠ 0 ↔ v.getLsbD k = true := by
  have hmask : bitMask k ≠ 0 := by
    intro h
    have hbit := getLsbD_bitMask k k
    rw [h] at hbit
    simp [hk] at hbit
  change v &&& BitVec.twoPow 32 k ≠ 0 ↔ _
  rw [BitVec.and_twoPow]
  split
  next h => exact iff_of_true hmask h
  next h => exact iff_of_false (fun hne => hne rfl) h

theorem ieSet_iff (s : State) : ieSet s = true ↔ s.cr &&& 0x8 ≠ 0 :=
  (and_bitMask_ne_zero_iff s.cr (k := ieBit) (by decide)).symm

theorem drdySet_iff (s : State) : drdySet s = true ↔ s.sr &&& 0x1 ≠ 0 :=
  (and_bitMask_ne_zero_iff s.sr (k := drdyBit) (by decide)).symm

theorem seisSet_iff (s : State) : seisSet s = true ↔ s.sr &&& 0x40 ≠ 0 :=
  (and_bitMask_ne_zero_iff s.sr (k := seisBit) (by decide)).symm

theorem ceisSet_iff (s : State) : ceisSet s = true ↔ s.sr &&& 0x20 ≠ 0 :=
  (and_bitMask_ne_zero_iff s.sr (k := ceisBit) (by decide)).symm

/-- Settles O39: the four fields of the formula as masks, and the entry from phase Idle, which does not read the line. -/
theorem interruptLineFormula : Obligations.InterruptLineFormula := by
  refine ⟨fun s => ?_, fun s _ hp => exec_irqEnter_idle s hp⟩
  rw [irqLine, Bool.and_eq_true, Bool.or_eq_true, Bool.or_eq_true, or_assoc, ieSet_iff, drdySet_iff, seisSet_iff,
    ceisSet_iff]

/-! ## Operands that no word encodes (60_exceptions.md R255, R256, R259) -/

theorem withHandle_noHandle {id : ClockId} (h : id.hasHandle = false) (next : State → State) (s : State) :
    withHandle id next s = refuse .noHandle s := if_neg (Bool.eq_false_iff.mp h)

/-- Every CLK_* operation, CLK_CONFIGURE too, makes the handle check first (60_exceptions.md R259). -/
theorem exec_clk_checks_handle (id : ClockId) {i : Instr}
    (hi : i ∈ [Instr.clkIsEnabled id, .clkEnable id, .clkDisable id, .clkGetFrequency id, .clkConfigure id]) (s : State) :
    ∃ next, exec i s = .next (withHandle id next s) := by
  simp only [List.mem_cons, List.not_mem_nil, or_false] at hi
  rcases hi with rfl | rfl | rfl | rfl | rfl <;> exact ⟨_, rfl⟩

theorem gpioReg_past_last {k : Nat} (hk : 7 < k) : gpioReg k = none := by
  rw [gpioReg_eq_getElem?, List.getElem?_eq_none_iff]
  exact hk

theorem periphReg_past_last {k : Nat} (hk : 15 < k) : periphReg k = none := by
  rw [periphReg_eq_getElem?, List.getElem?_eq_none_iff]
  exact hk

theorem clientInRange_eq_false {c : Nat} (hc : c = 0 ∨ 255 < c) : clientInRange c = false := by
  rw [Bool.eq_false_iff, Ne, clientInRange_iff]
  omega

/-- Settles O6: each meaning makes the decoder's operand check again and answers its failure with `refuse`, which writes the
mark alone. -/
theorem operandsOutsideTheEncodingAreRefused : Obligations.OperandsOutsideTheEncodingAreRefused := by
  refine ⟨fun id s h i hi => ?_, fun idx s hidx => ?_, fun idx s hidx => ?_, fun c s hc => ?_⟩
  · obtain ⟨next, hexec⟩ := exec_clk_checks_handle id hi s
    rw [hexec, withHandle_noHandle h, refuse]
  · rw [exec, execRegGpioHandle, gpioReg_past_last hidx, reportHandle, refuse]
  · rw [exec, execRegPeriphHandle, periphReg_past_last hidx, reportHandle, refuse]
  · rw [exec, execTrngSetClient, if_neg (Bool.eq_false_iff.mp (clientInRange_eq_false hc)), refuse]

/-! ## The stop after a fault (60_exceptions.md R252) -/

theorem nextTurn_faulted {s : State} {f : Fault} {rest : List Fault} (hf : s.faults = f :: rest) :
    nextTurn s = .stopped f := by
  rw [nextTurn, hf]

/-- Settles O12: a recorded fault is looked at before the schedule and the thread. -/
theorem noStepAfterAFault : Obligations.NoStepAfterAFault := by
  intro s f rest hf
  rw [step, nextTurn_faulted hf]

end Sys2Proof.Proofs

namespace Sys2Proof.Proofs

open Sys2Proof.Machine Sys2Proof.Safety

/-! ## Reset (70_reset_and_hazards.md R280, R283) -/

/-- Until a HW_DATA_READY loads DR, a read of it gives the next answer of `draw()` (10_state.md R31). -/
theorem drWord_unloaded {s : State} (h : s.drLoaded = false) : drWord s = Config.draw s.draws := by
  simp [drWord, h]

/-- Settles O13: the lines are those of the launch backend, CR is 0 so the driver is Disabled, and DR is unloaded; the rest
are the values `State.reset` is built from. -/
theorem resetLeavesTheStatedValues : Obligations.ResetLeavesTheStatedValues :=
  have hDisabled : driverState State.reset = .disabled := driverState_ced_only (v := 0) rfl
  have hDr : drWord State.reset = Config.draw State.reset.draws := drWord_unloaded rfl
  ⟨rfl, hDisabled, rfl, rfl, ⟨rfl, hDr⟩, lineOn_launch, rfl, rfl, rfl, rfl, rfl, rfl, rfl, rfl, rfl, rfl, rfl⟩

theorem cleanLaunch_reset : CleanLaunch State.reset :=
  ⟨rfl, rfl, rfl, rfl, rfl, rfl, rfl, rfl⟩

/-- The launch premise gives every clause of the invariant but the one on the handler's latch: with no flag set, no client
registered and no handler running, the conditional clauses say nothing yet, whatever the model's own fields hold. -/
theorem stateInv_of_cleanLaunch {s : State} (h : CleanLaunch s) (hhsr : s.hsr &&& ~~~srMask = 0) : StateInv s := by
  obtain ⟨hfaults, -, hphase, -, -, hcr, hsr, hclient⟩ := h
  exact {
    crReserved := by simp [hcr]
    srReserved := by simp [hsr]
    hsrReserved := hhsr
    clientLegal := by simp [hclient]
    drdyLoaded := by simp [drdySet, hsr]
    activeHasClient := by simp [hphase]
    cancelOutsideHandler := by simp [inHandler, hphase]
    oneFault := by simp [hfaults] }

/-- At a clean launch no invocation is open and none is logged. -/
theorem invocationLogged_of_cleanLaunch {s : State} (h : CleanLaunch s) : InvocationLogged s := by
  obtain ⟨-, -, hphase, -, hev, -, -, -⟩ := h
  simp [InvocationLogged, hphase, hev]

/-- Settles O14: reset is a clean launch with the latch at 0, and a clean launch meets both invariants. -/
theorem resetMeetsTheInvariants : Obligations.ResetMeetsTheInvariants :=
  ⟨stateInv_of_cleanLaunch cleanLaunch_reset (BitVec.zero_and ..), invocationLogged_of_cleanLaunch cleanLaunch_reset,
    cleanLaunch_reset⟩

end Sys2Proof.Proofs
